-- ==== Sys2Proof/Word.lean ====
section
/-! DEFINITION. The word types of the block (00_scope.md R15, 20_memory.md R60) and the shape of a store:
a list of (index, value) pairs. -/

namespace Sys2Proof

/-- A byte: 8 bits (R15). -/
abbrev Byte := BitVec 8

/-- A video address: 14 bits (R62). -/
abbrev Addr14 := BitVec 14

/-- A processor-bus address: 16 bits (R60). -/
abbrev Addr16 := BitVec 16

/-- A transaction word: 16 bits (30_encoding.md R100). -/
abbrev TWord := BitVec 16

/-- A scanline buffer cell: 5 bits (10_state.md R46). -/
abbrev Cell5 := BitVec 5

/-- A store: listed (index, value) pairs. What an unlisted index reads as is fixed where the store is
read (Machine/Ops.lean); `Memory Byte` is a list of `Host.Cell`. -/
abbrev Memory (α : Type) := List (Nat × α)

end Sys2Proof
end

