-- ==== Sys2Proof/Syntax.lean ====
section
/-! DEFINITION. The twenty transactions of opcode_table.json, the registers of the window, and the fields
of a transaction word (30_encoding.md R91, R100, R101, R102). -/

namespace Sys2Proof

/-- The eight registers of the window, in the order of their indices 0 to 7 (R91). -/
inductive Reg where
  | ctrl
  | mask
  | status
  | oamaddr
  | oamdata
  | scroll
  | addr
  | data
  deriving DecidableEq, Repr

/-- One transaction, the block's counterpart of an instruction (00_scope.md R18): one constructor per row
of opcode_table.json. The only operands are the data byte `v` of a register write and the source
`page` of a DMA trigger (R97). -/
inductive Instr where
  /-- RD_CTRL, 0x0000 (41_registers.md R120). -/
  | rdCtrl
  /-- RD_MASK, 0x0100 (R122). -/
  | rdMask
  /-- RD_STATUS, 0x0200 (R124). -/
  | rdStatus
  /-- RD_OAMADDR, 0x0300 (R126). -/
  | rdOamaddr
  /-- RD_OAMDATA, 0x0400 (R128). -/
  | rdOamdata
  /-- RD_SCROLL, 0x0500 (R130). -/
  | rdScroll
  /-- RD_ADDR, 0x0600 (R132). -/
  | rdAddr
  /-- RD_DATA, 0x0700 (R134). -/
  | rdData
  /-- WR_CTRL, 0x2000 | v (R121). -/
  | wrCtrl (v : Byte)
  /-- WR_MASK, 0x2100 | v (R123). -/
  | wrMask (v : Byte)
  /-- WR_STATUS, 0x2200 | v (R125). -/
  | wrStatus (v : Byte)
  /-- WR_OAMADDR, 0x2300 | v (R127). -/
  | wrOamaddr (v : Byte)
  /-- WR_OAMDATA, 0x2400 | v (R129). -/
  | wrOamdata (v : Byte)
  /-- WR_SCROLL, 0x2500 | v (R131). -/
  | wrScroll (v : Byte)
  /-- WR_ADDR, 0x2600 | v (R133). -/
  | wrAddr (v : Byte)
  /-- WR_DATA, 0x2700 | v (R135). -/
  | wrData (v : Byte)
  /-- WR_DMA, 0x6000 | page (R136). -/
  | wrDma (page : Byte)
  /-- RD_DMA, 0x4000 (R137). -/
  | rdDma
  /-- TICK, 0x8000 (46_scheduler.md R240). -/
  | tick
  /-- FRAME_READY, 0xC000 (45_timing.md R230). -/
  | frameReady
  deriving DecidableEq, Repr

/-- The PORT field, bits 15:14 of a transaction word (R100). -/
inductive Port where
  | window
  | dmaTrigger
  | clock
  | host
  deriving DecidableEq, Repr

/-- The five fields of a transaction word (R100). -/
structure TFields where
  /-- PORT, bits 15:14. -/
  port : Port
  /-- W, bit 13: true for a write. -/
  w    : Bool
  /-- RES, bits 12:11. -/
  res  : BitVec 2
  /-- IDX, bits 10:8. -/
  idx  : BitVec 3
  /-- DATA, bits 7:0. -/
  data : Byte
  deriving DecidableEq, Repr

/-- Why a word is reserved: the four cases of R102. -/
inductive Reserved where
  /-- RES is not 00. -/
  | resNonzero
  /-- W = 1 on the clock or the host port. -/
  | writeOnClockOrHost
  /-- IDX is not 000 on a port other than the window. -/
  | idxOffWindow
  /-- DATA is not 0x00 with W = 0. -/
  | dataOnRead
  deriving DecidableEq, Repr

end Sys2Proof
end

