-- ==== Sys2Proof/WellFormed.lean ====
section
/-! DEFINITION. Which transaction words have a meaning (30_encoding.md R102): the four checks on a word's
fields. An `Instr` needs no check of its own: its only operand is a byte, and every byte is allowed
(R97, R101). -/

namespace Sys2Proof

/-- RES must be 00 (R100). -/
def TFields.resOk (f : TFields) : Bool := f.res == 0#2

/-- Only the window and the DMA-trigger port take a write (R102). -/
def TFields.writeOk (f : TFields) : Bool :=
  !f.w || f.port == .window || f.port == .dmaTrigger

/-- IDX must be 000 on every port but the window (R100). -/
def TFields.idxOk (f : TFields) : Bool := f.port == .window || f.idx == 0#3

/-- DATA must be 0x00 when W = 0 (R100). -/
def TFields.dataOk (f : TFields) : Bool := f.w || f.data == 0#8

/-- The word with these fields is accepted, that is not reserved (R102). -/
def TFields.wellFormed (f : TFields) : Bool := f.resOk && f.writeOk && f.idxOk && f.dataOk

end Sys2Proof
end

