-- ==== Sys2Proof/Decode.lean ====
section
/-! DEFINITION. Transaction words to instructions and back (30_encoding.md R91, R100 to R103). A word is
exactly 16 bits and is handed over whole, so there is no byte order to decide (R103). -/

namespace Sys2Proof

/-- The register with index `idx` (R91). -/
def regOfIdx (idx : BitVec 3) : Reg :=
  match idx.toNat with
  | 0 => .ctrl
  | 1 => .mask
  | 2 => .status
  | 3 => .oamaddr
  | 4 => .oamdata
  | 5 => .scroll
  | 6 => .addr
  | _ => .data

/-- The index of a register (R91). -/
def idxOfReg : Reg → BitVec 3
  | .ctrl    => 0#3
  | .mask    => 1#3
  | .status  => 2#3
  | .oamaddr => 3#3
  | .oamdata => 4#3
  | .scroll  => 5#3
  | .addr    => 6#3
  | .data    => 7#3

/-- PORT from its two bits (R100). -/
def portOfBits (b : BitVec 2) : Port :=
  match b.toNat with
  | 0 => .window
  | 1 => .dmaTrigger
  | 2 => .clock
  | _ => .host

/-- The two bits of PORT (R100). -/
def bitsOfPort : Port → BitVec 2
  | .window     => 0#2
  | .dmaTrigger => 1#2
  | .clock      => 2#2
  | .host       => 3#2

/-- The fields of a word (R100). -/
def fieldsOfWord (x : TWord) : TFields where
  port := portOfBits (x.extractLsb' 14 2)
  w    := x.getLsbD 13
  res  := x.extractLsb' 11 2
  idx  := x.extractLsb' 8 3
  data := x.extractLsb' 0 8

/-- The word with these fields, PORT in the high bits (R100). -/
def wordOfFields (f : TFields) : TWord :=
  bitsOfPort f.port ++ BitVec.ofBool f.w ++ f.res ++ f.idx ++ f.data

/-- The register-window read of each register (R101). -/
def readInstr : Reg → Instr
  | .ctrl    => .rdCtrl
  | .mask    => .rdMask
  | .status  => .rdStatus
  | .oamaddr => .rdOamaddr
  | .oamdata => .rdOamdata
  | .scroll  => .rdScroll
  | .addr    => .rdAddr
  | .data    => .rdData

/-- The register-window write of each register (R101). -/
def writeInstr (r : Reg) (v : Byte) : Instr :=
  match r with
  | .ctrl    => .wrCtrl v
  | .mask    => .wrMask v
  | .status  => .wrStatus v
  | .oamaddr => .wrOamaddr v
  | .oamdata => .wrOamdata v
  | .scroll  => .wrScroll v
  | .addr    => .wrAddr v
  | .data    => .wrData v

/-- Which check of R102 a word's fields fail, if any. Where several fail, the first of this order is
named; the spec names no order, and nothing but the name depends on it (log entry 12). -/
def reservedWhy (f : TFields) : Option Reserved :=
  if !f.resOk then some .resNonzero
  else if !f.writeOk then some .writeOnClockOrHost
  else if !f.idxOk then some .idxOffWindow
  else if !f.dataOk then some .dataOnRead
  else none

/-- The opcode map of R101 on the fields of an accepted word. -/
def acceptedInstr (f : TFields) : Instr :=
  match f.port with
  | .window     => if f.w then writeInstr (regOfIdx f.idx) f.data else readInstr (regOfIdx f.idx)
  | .dmaTrigger => if f.w then .wrDma f.data else .rdDma
  | .clock      => .tick
  | .host       => .frameReady

/-- The decoder: total, answering why a reserved word is reserved (R102). -/
def decode (x : TWord) : Except Reserved Instr :=
  match reservedWhy (fieldsOfWord x) with
  | some why => .error why
  | none     => .ok (acceptedInstr (fieldsOfWord x))

/-- The fields of a register-window read (R101). -/
def readFields (r : Reg) : TFields := ⟨.window, false, 0#2, idxOfReg r, 0#8⟩

/-- The fields of a register-window write (R101). -/
def writeFields (r : Reg) (v : Byte) : TFields := ⟨.window, true, 0#2, idxOfReg r, v⟩

/-- The fields of each transaction's word (R101). -/
def fieldsOfInstr : Instr → TFields
  | .rdCtrl      => readFields .ctrl
  | .rdMask      => readFields .mask
  | .rdStatus    => readFields .status
  | .rdOamaddr   => readFields .oamaddr
  | .rdOamdata   => readFields .oamdata
  | .rdScroll    => readFields .scroll
  | .rdAddr      => readFields .addr
  | .rdData      => readFields .data
  | .wrCtrl v    => writeFields .ctrl v
  | .wrMask v    => writeFields .mask v
  | .wrStatus v  => writeFields .status v
  | .wrOamaddr v => writeFields .oamaddr v
  | .wrOamdata v => writeFields .oamdata v
  | .wrScroll v  => writeFields .scroll v
  | .wrAddr v    => writeFields .addr v
  | .wrData v    => writeFields .data v
  | .wrDma page  => ⟨.dmaTrigger, true, 0#2, 0#3, page⟩
  | .rdDma       => ⟨.dmaTrigger, false, 0#2, 0#3, 0#8⟩
  | .tick        => ⟨.clock, false, 0#2, 0#3, 0#8⟩
  | .frameReady  => ⟨.host, false, 0#2, 0#3, 0#8⟩

/-- The encoder (R101). -/
def encode (i : Instr) : TWord := wordOfFields (fieldsOfInstr i)

/-- The transaction word whose low `nbits` bits are those of `w` and whose other bits are 0. Bit 0 of
`w` is bit 0 of the word; every row of the opcode table is one 16-bit word (R103). -/
def tableWord (nbits w : Nat) : TWord := BitVec.ofNat 16 (w % 2 ^ nbits)

/-- What the decoder reads from a word given as the opcode table numbers its bits. -/
def decodeTableWord (nbits w : Nat) : Option Instr :=
  match decode (tableWord nbits w) with
  | .ok i    => some i
  | .error _ => none

end Sys2Proof
end

