-- ==== Sys2Proof/Config.lean ====
section
/-! DEFINITION. What the spec leaves to whoever carries the block: the OPEN parameters of 00_scope.md
R9 to R14 as plain data, the shape of a processor step, and the free values, which have no body. -/

namespace Sys2Proof

/-- `Colour`, "an opaque type of displayable colours" (R9). A colour is known only by its name, a
number; nothing computes with it. DESIGN CHOICE, log entry 5. -/
structure Colour where
  code : Nat
  deriving DecidableEq, Repr, Inhabited

/-- `SPRITE_PRIORITY_ORDER` (R10): which of two overlapping selected sprites wins. -/
inductive SpritePriority where
  | firstWins
  | lastWins
  deriving DecidableEq, Repr

/-- `SPRITE_PALETTE_SELECT` (R11): which half of the palette a sprite cell indexes. -/
inductive SpritePalette where
  | sprite
  | background
  deriving DecidableEq, Repr

/-- `MASTER_COLOURS : Fin 64 -> Colour` (R9): the OPEN table (`external`, the free constant
`Config.masterColours`), or a table a harness hands in. -/
inductive ColourTable where
  | external
  | table (t : Vector Colour 64)
  deriving DecidableEq, Repr

/-- A run of processor-bus addresses, both ends included. -/
structure AddrRange where
  first : Addr16
  last  : Addr16
  deriving DecidableEq, Repr

/-- `BusRead : Addr16 -> Byte` (R13, R254), the dispatcher's value for a target outside the block:
`draw`, any value at every read ("draw unless the model fixes them", R254); `external`, one fixed but
unknown function, `Config.busRead`; `pattern`, the fixture BUS-PAT of 92_eei_decisions.md D57.
Log entry 8. -/
inductive BusTargets where
  | draw
  | external
  | pattern
  deriving DecidableEq, Repr

/-- The OPEN parameters of the block as plain data. `State` carries one value of it and no step changes
it, so a statement over all states holds for every choice. Log entries 5 to 8. -/
structure Params where
  /-- `SPRITE_PRIORITY_ORDER`, R10. -/
  priority   : SpritePriority
  /-- `SPRITE_PALETTE_SELECT`, R11. -/
  palette    : SpritePalette
  /-- `MASTER_COLOURS`, R9. -/
  colours    : ColourTable
  /-- `PPU_WINDOW`, R13: the addresses of all the ranges together. -/
  window     : List AddrRange
  /-- `DMA_TRIGGER_ADDR`, R13. -/
  dmaTrigger : Addr16
  /-- `BusRead`, R13. -/
  bus        : BusTargets
  deriving DecidableEq, Repr

/-- The defaults the spec gives (R10, R11, R13); where it gives none, the parameter stays open. -/
def Params.default : Params where
  priority   := .firstWins
  palette    := .sprite
  colours    := .external
  window     := [⟨0x2000#16, 0x3FFF#16⟩]
  dmaTrigger := 0x4014#16
  bus        := .draw

/-- `CpuState` (R14): an external processor in the state that `code` numbers, or one of the spec's two
stub processors, NOP-CPU (30_encoding.md R106) and ONE-SHOT-CPU(a, v) (92_eei_decisions.md D57), each
with its counters `steps` and `nmi_count`. Log entry 10. -/
inductive CpuState where
  | external (code : Nat)
  | nop (steps nmiCount : Nat)
  | oneShot (a : Addr16) (v : Byte) (steps nmiCount : Nat)
  deriving DecidableEq, Repr, Inhabited

/-- `CpuStep` (R14): one processor step as an interaction with the bus. Being an inductive type, every
step ends in `done` (46_scheduler.md R245; 93_implementation_defined.md I21). It is no part of
`State`. -/
inductive CpuStep where
  /-- Read `a` and continue with the byte. -/
  | read (a : Addr16) (k : Byte → CpuStep)
  /-- Write `v` to `a`, then continue. -/
  | write (a : Addr16) (v : Byte) (next : CpuStep)
  /-- The step is over; `busy = false` means an instruction completed. -/
  | done (s' : CpuState) (busy : Bool)
  deriving Inhabited

/-- `CartState` (R12): an external cartridge in the state that `code` numbers, or the fixture RAM-CART
of 92_eei_decisions.md D57 with its bytes. Log entry 9. -/
inductive CartState where
  | external (code : Nat)
  | ram (cells : Memory Byte)
  deriving DecidableEq, Repr

/-- FREE: the entries of the master colour table (R9; 92_eei_decisions.md D30). Log entry 5. -/
opaque Config.masterColours : Fin 64 → Colour

/-- FREE: what the framebuffer cell with this linear index holds before it is first written
(10_state.md R47, "a draw"). Log entry 4. -/
opaque Config.fbPowerOn : Nat → Colour

/-- FREE: the `n`th byte that `draw8()` answers (41_registers.md R120). Log entry 3. -/
opaque Config.draw8 : Nat → Byte

/-- FREE: `BusRead`, where it is taken as one fixed function (R13). Log entry 8. -/
opaque Config.busRead : Addr16 → Byte

/-- FREE: `readChipSpace` of the external cartridge, by its state's code (R12). Log entry 9. -/
opaque Config.readChip : Nat → Addr14 → Byte

/-- FREE: `writeChipSpace` of the external cartridge: its next state's code (R12). Log entry 9. -/
opaque Config.writeChip : Nat → Addr14 → Byte → Nat

/-- FREE: the state the external cartridge powers on in (70_reset_and_hazards.md R280). Log entry 9. -/
opaque Config.cartPowerOn : Nat

/-- FREE: `step` of the external processor, by its state's code (R14). Log entry 10. -/
opaque Config.cpuStep : Nat → CpuStep

/-- FREE: `raiseNMI` of the external processor: its next state's code (R14). Log entry 10. -/
opaque Config.cpuRaiseNmi : Nat → Nat

end Sys2Proof
end

