-- ==== Sys2Proof/Machine/State.lean ====
section
/-! DEFINITION. The block's state (10_state.md R20) as plain data, with the external collaborators' states
and the parameters it runs against, and its value at power-on (70_reset_and_hazards.md R280). -/

namespace Sys2Proof.Machine

/-- The one fault of the block, with its information (60_exceptions.md R260). `pixel` raises it into the
field `fault` of the state; no step ever answers `Host.Outcome.fault`, because a faulted machine stays
and leaves its state unchanged (R260, log entry 11). Safe: no transaction reaches it (R214). -/
inductive Fault where
  /-- FB_BOUNDS(x, y): the pixel index `y * 256 + x` lies beyond the framebuffer. Raised by `pixel`.
  Safe. -/
  | fbBounds (x y : Nat)
  deriving DecidableEq, Repr

/-- Why a step answers no state. -/
inductive Refusal where
  /-- An instruction the model gives no meaning. Raised by an arm of `exec`; no arm does. Safe. -/
  | notModelled (mnemonic : String)
  /-- A reserved transaction word (60_exceptions.md R262): the REFUSED mark of the run. Raised by `step`,
  for a word the decoder refuses. Safe: a refused run proves nothing. Log entry 12. -/
  | reserved (why : Reserved)
  deriving DecidableEq, Repr

/-- The DMA state (R52): `active page count` moves byte `count` of `page` next. -/
inductive Dma where
  | inactive
  | active (page : Byte) (count : Fin 256)
  deriving DecidableEq, Repr

/-- What a transaction returns to its issuer: nothing, the byte of a register read, or the answer of
FRAME_READY. Log entry 2. -/
inductive Response where
  | none
  | byte (v : Byte)
  | ready (b : Bool)
  deriving DecidableEq, Repr

/-- The machine. Rule numbers without a file are 10_state.md's. -/
structure State where
  /-- CTRL, R21 to R28. -/
  ctrl : Byte
  /-- MASK, R29 to R35. -/
  mask : Byte
  /-- STATUS, R36 to R39. -/
  status : Byte
  /-- SCROLLX, R40. -/
  scrollX : Byte
  /-- SCROLLY, R40: also the staged slot of the scroll latch. -/
  scrollY : Byte
  /-- VADDR, the address pointer of the data port, R41. -/
  vaddr : Addr14
  /-- VTOG, the address latch's toggle, which nothing reads, R42. -/
  vtog : Bool
  /-- OAMADDR, the OAM cursor, R43. -/
  oamaddr : Byte
  /-- OAM, 256 bytes, R44. An unlisted byte is 0x00. -/
  oam : Memory Byte
  /-- PAL, 32 bytes of palette, R45. An unlisted byte is 0x00. -/
  pal : Memory Byte
  /-- SCAN, the 256 cells of the scanline buffer, R46. An unlisted cell is 0. -/
  scan : Memory Cell5
  /-- FB, the 61440 cells of the framebuffer by linear index `y * 256 + x`, R47 and R70. The listed cells are
  those written since power-on; an unlisted one still holds its power-on draw. Log entry 4. -/
  fb : Memory Colour
  /-- DOT of the timing cursor, R48. -/
  dot : Fin 341
  /-- LINE of the timing cursor, R48. -/
  line : Fin 262
  /-- IPEND, the interrupt-pending flag, R49. -/
  ipend : Bool
  /-- HITCOL, the remembered sprite-0-hit column, R50. -/
  hitcol : Option (Fin 255)
  /-- CLK, the index of the next clock unit, R51. -/
  clk : Nat
  /-- DMA, R52. -/
  dma : Dma
  /-- NMIPREV, NMI_OUT at the most recent instruction boundary, R53. -/
  nmiprev : Bool
  /-- TOTDOTS, the monotonic dot counter, R54. -/
  totdots : Nat
  /-- LASTREP, the dot count of the last reported frame, R54. -/
  lastrep : Nat
  /-- FAULT, R57. -/
  fault : Option Fault
  /-- The external processor's state, 00_scope.md R14; not part of the block's own state (R20). Log entry 10. -/
  cpu : CpuState
  /-- The external cartridge's state, 00_scope.md R12; not part of the block's own state (R20). Log entry 9. -/
  cart : CartState
  /-- The OPEN parameters, 00_scope.md R9 to R13; no step changes them. Log entries 5 to 8. -/
  params : Params
  /-- MODEL'S OWN: the transaction words issued and not yet performed, first one first (30_encoding.md R100,
  R106). Log entry 1. -/
  script : List TWord
  /-- MODEL'S OWN: what the last transaction returned to its issuer. Log entry 2. -/
  resp : Response
  /-- MODEL'S OWN: how many free bytes have been drawn, which picks the next one. Log entry 3. -/
  draws : Nat
  deriving DecidableEq, Repr

/-- The machine at power-on (70_reset_and_hazards.md R280); the values that R280 does not give are named
in log entries 1 to 4 and 9 to 10. -/
def State.reset : State where
  ctrl := 0x00#8
  mask := 0x00#8
  status := 0x00#8
  scrollX := 0x00#8
  scrollY := 0x00#8
  vaddr := 0x0000#14
  vtog := false
  oamaddr := 0x00#8
  oam := []
  pal := []
  scan := []
  fb := []
  dot := 0
  line := 0
  ipend := false
  hitcol := none
  clk := 0
  dma := .inactive
  nmiprev := false
  totdots := 0
  lastrep := 0
  fault := none
  cpu := .nop 0 0
  cart := .external Config.cartPowerOn
  params := .default
  script := []
  resp := .none
  draws := 0

/-! One named update per field that an operation writes. -/

/-- Write the field `ctrl`. -/
def State.setCtrl (s : State) (v : Byte) : State := { s with ctrl := v }

/-- Write the field `mask`. -/
def State.setMask (s : State) (v : Byte) : State := { s with mask := v }

/-- Write the field `status`. -/
def State.setStatus (s : State) (v : Byte) : State := { s with status := v }

/-- Write the field `scrollX`. -/
def State.setScrollX (s : State) (v : Byte) : State := { s with scrollX := v }

/-- Write the field `scrollY`. -/
def State.setScrollY (s : State) (v : Byte) : State := { s with scrollY := v }

/-- Write the field `vaddr`. -/
def State.setVaddr (s : State) (v : Addr14) : State := { s with vaddr := v }

/-- Write the field `vtog`. -/
def State.setVtog (s : State) (v : Bool) : State := { s with vtog := v }

/-- Write the field `oamaddr`. -/
def State.setOamaddr (s : State) (v : Byte) : State := { s with oamaddr := v }

/-- Write the field `oam`. -/
def State.setOam (s : State) (v : Memory Byte) : State := { s with oam := v }

/-- Write the field `pal`. -/
def State.setPal (s : State) (v : Memory Byte) : State := { s with pal := v }

/-- Write the field `scan`. -/
def State.setScan (s : State) (v : Memory Cell5) : State := { s with scan := v }

/-- Write the field `fb`. -/
def State.setFb (s : State) (v : Memory Colour) : State := { s with fb := v }

/-- Write the field `dot`. -/
def State.setDot (s : State) (v : Fin 341) : State := { s with dot := v }

/-- Write the field `line`. -/
def State.setLine (s : State) (v : Fin 262) : State := { s with line := v }

/-- Write the field `ipend`. -/
def State.setIpend (s : State) (v : Bool) : State := { s with ipend := v }

/-- Write the field `hitcol`. -/
def State.setHitcol (s : State) (v : Option (Fin 255)) : State := { s with hitcol := v }

/-- Write the field `clk`. -/
def State.setClk (s : State) (v : Nat) : State := { s with clk := v }

/-- Write the field `dma`. -/
def State.setDma (s : State) (v : Dma) : State := { s with dma := v }

/-- Write the field `nmiprev`. -/
def State.setNmiprev (s : State) (v : Bool) : State := { s with nmiprev := v }

/-- Write the field `totdots`. -/
def State.setTotdots (s : State) (v : Nat) : State := { s with totdots := v }

/-- Write the field `lastrep`. -/
def State.setLastrep (s : State) (v : Nat) : State := { s with lastrep := v }

/-- Write the field `fault`. -/
def State.setFault (s : State) (v : Option Fault) : State := { s with fault := v }

/-- Write the field `cpu`. -/
def State.setCpu (s : State) (v : CpuState) : State := { s with cpu := v }

/-- Write the field `cart`. -/
def State.setCart (s : State) (v : CartState) : State := { s with cart := v }

/-- Write the field `script`. -/
def State.setScript (s : State) (v : List TWord) : State := { s with script := v }

/-- Write the field `resp`. -/
def State.setResp (s : State) (v : Response) : State := { s with resp := v }

/-- Write the field `draws`. -/
def State.setDraws (s : State) (v : Nat) : State := { s with draws := v }

end Sys2Proof.Machine
end

