-- ==== Sys2Proof/Machine/Flags.lean ====
section
/-! DEFINITION. The fields of CTRL, MASK, STATUS and the sprite attribute byte, the two status flags'
updates, and the NMI request signal (10_state.md R21 to R39, R55; 30_encoding.md R93). -/

namespace Sys2Proof.Machine

/-- CTRL.NT, the nametable select 0..3 (R22). -/
def ctrlNT (c : Byte) : BitVec 2 := c.extractLsb' 0 2

/-- CTRL.INC, the data port's increment select (R23). -/
def ctrlINC (c : Byte) : Bool := c.getLsbD 2

/-- CTRL.SPT, the sprite pattern table (R24). -/
def ctrlSPT (c : Byte) : Bool := c.getLsbD 3

/-- CTRL.BGT, the background pattern table (R25). -/
def ctrlBGT (c : Byte) : Bool := c.getLsbD 4

/-- CTRL.SSZ, the sprite-size request, which no rule honours (R26). -/
def ctrlSSZ (c : Byte) : Bool := c.getLsbD 5

/-- CTRL.NMIE, the vblank NMI enable (R28). -/
def ctrlNMIE (c : Byte) : Bool := c.getLsbD 7

/-- MASK.GREY, without effect (R30). -/
def maskGREY (m : Byte) : Bool := m.getLsbD 0

/-- MASK.BGL, without effect (R31). -/
def maskBGL (m : Byte) : Bool := m.getLsbD 1

/-- MASK.SPL: show sprites in the leftmost 8 columns (R32). -/
def maskSPL (m : Byte) : Bool := m.getLsbD 2

/-- MASK.BGE, the background show-enable (R33). -/
def maskBGE (m : Byte) : Bool := m.getLsbD 3

/-- MASK.SPE, the sprite show-enable (R34). -/
def maskSPE (m : Byte) : Bool := m.getLsbD 4

/-- MASK.EMPH, without effect (R35). -/
def maskEMPH (m : Byte) : BitVec 3 := m.extractLsb' 5 3

/-- STATUS.VBL (R37). -/
def statusVBL (st : Byte) : Bool := st.getLsbD 7

/-- STATUS.S0H (R38). -/
def statusS0H (st : Byte) : Bool := st.getLsbD 6

/-- STATUS with VBL set (45_timing.md R223). -/
def setVBL (st : Byte) : Byte := st ||| 0x80#8

/-- STATUS with VBL cleared (41_registers.md R124). -/
def clearVBL (st : Byte) : Byte := st &&& 0x7F#8

/-- STATUS with S0H set (45_timing.md R224). -/
def setS0H (st : Byte) : Byte := st ||| 0x40#8

/-- STATUS with S0H cleared (45_timing.md R221). -/
def clearS0H (st : Byte) : Byte := st &&& 0xBF#8

/-- ATTR.PAL, the sprite palette group (30_encoding.md R93). -/
def attrPAL (a : Byte) : BitVec 2 := a.extractLsb' 0 2

/-- ATTR.PRI, read but without effect (43_sprites.md R194). -/
def attrPRI (a : Byte) : Bool := a.getLsbD 5

/-- ATTR.HFLIP (30_encoding.md R93). -/
def attrHFLIP (a : Byte) : Bool := a.getLsbD 6

/-- ATTR.VFLIP (30_encoding.md R93). -/
def attrVFLIP (a : Byte) : Bool := a.getLsbD 7

/-- `NMI_OUT = CTRL.NMIE AND IPEND`, evaluated whenever it is read (R55, 45_timing.md R228). -/
def nmiOut (s : State) : Bool := ctrlNMIE s.ctrl && s.ipend

end Sys2Proof.Machine
end

