-- ==== Sys2Proof/Machine/Operands.lean ====
section
/-! DEFINITION. Operand assembly and address arithmetic: palette aliasing, the data port's pointer, the
address latch, the window's index, the DMA source address, and the pixel and group bits of rendering. -/

namespace Sys2Proof.Machine

/-- `pidx` (20_memory.md R67): mirrored mod 32, index 0 of every 4-entry group aliased to 0. -/
def pidx (a : Nat) : Nat := if (a % 32) % 4 = 0 then 0 else a % 32

/-- Every video access is made at `a mod 0x4000` (R62). -/
def videoAddr (a : Nat) : Addr14 := BitVec.ofNat 14 a

/-- The data port's step: 32 when CTRL.INC = 1, else 1 (30_encoding.md R97, 10_state.md R23). -/
def dataIncrement (inc : Bool) : Addr14 := if inc then 32#14 else 1#14

/-- One ADDR write: `((VADDR & 0x3F) << 8) | v` (41_registers.md R133). -/
def shiftAddress (vaddr : Addr14) (v : Byte) : Addr14 :=
  vaddr.extractLsb' 0 6 ++ v

/-- `idx = A[2:0]` (30_encoding.md R90). -/
def windowIndex (a : Addr16) : BitVec 3 := a.extractLsb' 0 3

/-- `page * 256 + count` (46_scheduler.md R249). -/
def dmaSource (page : Byte) (count : Fin 256) : Addr16 := page ++ BitVec.ofFin (w := 8) count

/-- The lower bit plane's bit and the higher one's, as a colour 0..3 (30_encoding.md R94). -/
def pixelColour (lo hi : Byte) (b : Nat) : BitVec 2 :=
  BitVec.ofBool (hi.getLsbD b) ++ BitVec.ofBool (lo.getLsbD b)

/-- The attribute's palette group at sweep column `hh` and effective row `ey` (42_background.md R166). -/
def paletteGroup (attr : Byte) (hh ey : Nat) : BitVec 2 :=
  attr.extractLsb' ((if hh % 32 ≥ 16 then 2 else 0) + (if ey % 32 ≥ 16 then 4 else 0)) 2

/-- The address of row `row` of tile `tile` in the pattern table `table` (0 or 1): its low plane's byte
(30_encoding.md R94). The high plane's byte is 8 further on. -/
def patternAddr (table : Bool) (tile : Byte) (row : Nat) : Nat :=
  (if table then 0x1000 else 0) + 16 * tile.toNat + row

/-- The linear index of framebuffer cell (x, y) (20_memory.md R70). -/
def pixelIndex (x y : Nat) : Nat := y * 256 + x

end Sys2Proof.Machine
end

