-- ==== Sys2Proof/Machine/Ops.lean ====
section
/-! DEFINITION. The named operations over stores, memories and registers, the external collaborators'
entry points, the fault, and the frame every transaction runs in. -/

namespace Sys2Proof.Machine

/-! ### Stores -/

/-- The value listed at index `a`, if any. -/
def cellLookup {α : Type} : Memory α → Nat → Option α
  | [], _ => none
  | (k, v) :: rest, a => if k = a then some v else cellLookup rest a

/-- List `v` at index `a`, in rising order, in place of what was listed there. -/
def cellInsert {α : Type} : Memory α → Nat → α → Memory α
  | [], a, v => [(a, v)]
  | (k, w) :: rest, a, v =>
    if a < k then (a, v) :: (k, w) :: rest
    else if k = a then (a, v) :: rest
    else (k, w) :: cellInsert rest a v

/-- List nothing at index `a`. -/
def cellErase {α : Type} : Memory α → Nat → Memory α
  | [], _ => []
  | (k, w) :: rest, a => if k = a then cellErase rest a else (k, w) :: cellErase rest a

/-- Read index `a` of a store whose unlisted cells hold `d`. -/
def cellRead {α : Type} (d : α) (m : Memory α) (a : Nat) : α := (cellLookup m a).getD d

/-- Write `v` at index `a` of a store whose unlisted cells hold `d`: writing `d` lists nothing. -/
def cellWrite {α : Type} [DecidableEq α] (d : α) (m : Memory α) (a : Nat) (v : α) : Memory α :=
  if v = d then cellErase m a else cellInsert m a v

/-- The canonical form of a store of `bound` cells whose unlisted cells hold `d`: strictly rising indices
below `bound`, and no cell listed that holds `d`. -/
abbrev Memory.wf {α : Type} (d : α) (bound : Nat) (m : Memory α) : Prop :=
  m.Pairwise (fun c c' => c.1 < c'.1) ∧ ∀ c ∈ m, c.1 < bound ∧ c.2 ≠ d

/-- The canonical form of the framebuffer: strictly rising indices below 61440. A listed cell is one that
has been written. -/
abbrev Memory.fbWf (m : Memory Colour) : Prop :=
  m.Pairwise (fun c c' => c.1 < c'.1) ∧ ∀ c ∈ m, c.1 < 61440

/-! ### OAM, palette, scanline buffer, framebuffer -/

/-- `OAM[i mod 256]` (20_memory.md R69). -/
def oamRead (s : State) (i : Nat) : Byte := cellRead 0#8 s.oam (i % 256)

/-- `OAM[OAMADDR] <- v; OAMADDR <- (OAMADDR + 1) mod 256`, the OAMDATA write that the port and the DMA
engine share (41_registers.md R129, 46_scheduler.md R249). -/
def oamPush (s : State) (v : Byte) : State :=
  (s.setOam (cellWrite 0#8 s.oam s.oamaddr.toNat v)).setOamaddr (s.oamaddr + 1)

/-- `PAL[i]` (10_state.md R45). -/
def palRead (s : State) (i : Nat) : Byte := cellRead 0#8 s.pal i

/-- `PAL[i] <- v`, all 8 bits (20_memory.md R68). -/
def palWrite (s : State) (i : Nat) (v : Byte) : State := s.setPal (cellWrite 0#8 s.pal i v)

/-- `SCAN[x]` (10_state.md R46). -/
def scanRead (m : Memory Cell5) (x : Nat) : Cell5 := cellRead 0#5 m x

/-- `SCAN[x] <- c` (10_state.md R46). -/
def scanWrite (m : Memory Cell5) (x : Nat) (c : Cell5) : Memory Cell5 := cellWrite 0#5 m x c

/-- `FB[y][x]`, which is also the host's framebuffer read (60_exceptions.md R271). A cell not yet written
holds its power-on draw (10_state.md R47). Log entry 4. -/
def fbRead (s : State) (x y : Nat) : Colour :=
  (cellLookup s.fb (pixelIndex x y)).getD (Config.fbPowerOn (pixelIndex x y))

/-- `FB[y][x] <- c` (44_compositor.md R214). -/
def fbWrite (s : State) (x y : Nat) (c : Colour) : State :=
  s.setFb (cellInsert s.fb (pixelIndex x y) c)

/-! ### The external collaborators -/

/-- `readChipSpace`, free of side effects (00_scope.md R12). -/
def readChipSpace (c : CartState) (a : Addr14) : Byte :=
  match c with
  | .external code => Config.readChip code a
  | .ram cells     => cellRead 0#8 cells a.toNat

/-- `writeChipSpace` (00_scope.md R12). -/
def writeChipSpace (a : Addr14) (v : Byte) (c : CartState) : CartState :=
  match c with
  | .external code => .external (Config.writeChip code a v)
  | .ram cells     => .ram (cellWrite 0#8 cells a.toNat v)

/-- `step` of the processor (00_scope.md R14). NOP-CPU completes an instruction at every step and touches
no bus (30_encoding.md R106); ONE-SHOT-CPU(a, v) differs in its first step only (92_eei_decisions.md
D57). -/
def cpuStep (c : CpuState) : CpuStep :=
  match c with
  | .external code => Config.cpuStep code
  | .nop steps nmis => .done (.nop (steps + 1) nmis) false
  | .oneShot a v steps nmis =>
    if steps = 0 then .write a v (.done (.oneShot a v 1 nmis) false)
    else .done (.oneShot a v (steps + 1) nmis) false

/-- `raiseNMI` of the processor (00_scope.md R14); the stubs count it (30_encoding.md R106). -/
def cpuRaiseNmi (c : CpuState) : CpuState :=
  match c with
  | .external code => .external (Config.cpuRaiseNmi code)
  | .nop steps nmis => .nop steps (nmis + 1)
  | .oneShot a v steps nmis => .oneShot a v steps (nmis + 1)

/-- `MASTER_COLOURS[i]` (00_scope.md R9). -/
def masterColour (p : Params) (i : Fin 64) : Colour :=
  match p.colours with
  | .external => Config.masterColours i
  | .table t  => t.get i

/-! ### Free values -/

/-- `draw8()`: any byte. The state's counter picks a fresh one; no other state changes (41_registers.md
R120). Log entry 3. -/
def draw8 (s : State) : Byte × State := (Config.draw8 s.draws, s.setDraws (s.draws + 1))

/-- `BusRead(a)`, the dispatcher's value for a target outside the block (00_scope.md R13, 46_scheduler.md
R254); BUS-PAT is `(a & 0xFF) XOR (a >> 8)` (92_eei_decisions.md D57). Log entry 8. -/
def busRead (a : Addr16) (s : State) : Byte × State :=
  match s.params.bus with
  | .draw     => draw8 s
  | .external => (Config.busRead a, s)
  | .pattern  => (a.extractLsb' 0 8 ^^^ a.extractLsb' 8 8, s)

/-! ### The video address space -/

/-- `MemRead(a, 1)` (20_memory.md R64). -/
def memRead (s : State) (a : Nat) : Byte :=
  if (videoAddr a).toNat ≥ 0x3F00 then palRead s (pidx (videoAddr a).toNat)
  else readChipSpace s.cart (videoAddr a)

/-- `MemWrite(a, 1, v)` (20_memory.md R65). -/
def memWrite (s : State) (a : Nat) (v : Byte) : State :=
  if (videoAddr a).toNat ≥ 0x3F00 then palWrite s (pidx (videoAddr a).toNat) v
  else s.setCart (writeChipSpace (videoAddr a) v s.cart)

/-! ### The fault, the NMI, and the frame of a transaction -/

/-- `raise Fault(info)`: FAULT records it and nothing else changes (60_exceptions.md R260). -/
def raiseFault (f : Fault) (s : State) : State := s.setFault (some f)

/-- The code of a fault: 0, as the only fault's (60_exceptions.md R260). -/
def faultCode (_ : Fault) : Nat := 0

/-- `raiseNMI(cpu)`, the block's whole delivery of an interrupt; saving state, the vector and the return
are the processor's (60_exceptions.md R266, R268). -/
def deliverNmi (s : State) : State := s.setCpu (cpuRaiseNmi s.cpu)

/-- Run a transaction's effect, unless the machine has faulted: then it is quiescent and every
transaction leaves the state unchanged (60_exceptions.md R260). -/
def transact (f : State → State) (s : State) : Host.Outcome State Fault Refusal :=
  .next (if s.fault.isSome then s else f s)

/-- A transaction that returns the byte `f` reads. -/
def transactRead (f : State → Byte × State) (s : State) : Host.Outcome State Fault Refusal :=
  transact (fun s => (f s).2.setResp (.byte (f s).1)) s

/-- A transaction that returns nothing. -/
def transactSilent (f : State → State) (s : State) : Host.Outcome State Fault Refusal :=
  transact (fun s => (f s).setResp .none) s

end Sys2Proof.Machine
end

