-- ==== Sys2Proof/Machine/Registers.lean ====
section
/-! DEFINITION. What each register transaction does, whoever issues it: a script, a processor step or the
DMA engine's source read (41_registers.md R120 to R138). A read answers its byte and the state after. -/

namespace Sys2Proof.Machine

/-- RD_CTRL (R120): a draw. -/
def readCtrl (s : State) : Byte × State := draw8 s

/-- RD_MASK (R122): a draw. -/
def readMask (s : State) : Byte × State := draw8 s

/-- RD_STATUS (R124): STATUS, then VBL is cleared and nothing else. -/
def readStatus (s : State) : Byte × State := (s.status, s.setStatus (clearVBL s.status))

/-- RD_OAMADDR (R126): a draw. -/
def readOamaddr (s : State) : Byte × State := draw8 s

/-- RD_OAMDATA (R128): the byte at the cursor, which stays. -/
def readOamdata (s : State) : Byte × State := (oamRead s s.oamaddr.toNat, s)

/-- RD_SCROLL (R130): a draw. -/
def readScroll (s : State) : Byte × State := draw8 s

/-- RD_ADDR (R132): a draw. -/
def readAddr (s : State) : Byte × State := draw8 s

/-- The data port's pointer after an access, mod 0x4000 (R134, R135). -/
def advanceVaddr (s : State) : State := s.setVaddr (s.vaddr + dataIncrement (ctrlINC s.ctrl))

/-- RD_DATA (R134): the byte at VADDR at once, then the pointer advances. -/
def readData (s : State) : Byte × State := (memRead s s.vaddr.toNat, advanceVaddr s)

/-- WR_CTRL (R121). -/
def writeCtrl (v : Byte) (s : State) : State := s.setCtrl v

/-- WR_MASK (R123). -/
def writeMask (v : Byte) (s : State) : State := s.setMask v

/-- WR_STATUS (R125): the byte is discarded. -/
def writeStatus (_ : Byte) (s : State) : State := s

/-- WR_OAMADDR (R127). -/
def writeOamaddr (v : Byte) (s : State) : State := s.setOamaddr v

/-- WR_OAMDATA (R129). -/
def writeOamdata (v : Byte) (s : State) : State := oamPush s v

/-- WR_SCROLL (R131): X <- Y, Y <- v. -/
def writeScroll (v : Byte) (s : State) : State := (s.setScrollX s.scrollY).setScrollY v

/-- WR_ADDR (R133): the pointer shifts and VTOG flips. -/
def writeAddr (v : Byte) (s : State) : State := (s.setVaddr (shiftAddress s.vaddr v)).setVtog (!s.vtog)

/-- WR_DATA (R135): the byte goes to VADDR, then the pointer advances. -/
def writeData (v : Byte) (s : State) : State := advanceVaddr (memWrite s s.vaddr.toNat v)

/-- WR_DMA (R136): DMA <- Active(page, 0), during a transfer too. -/
def writeDma (page : Byte) (s : State) : State := s.setDma (.active page 0)

/-- RD_DMA (R137): a draw. -/
def readDma (s : State) : Byte × State := draw8 s

/-- The read of a window register (30_encoding.md R91). -/
def readReg (r : Reg) (s : State) : Byte × State :=
  match r with
  | .ctrl    => readCtrl s
  | .mask    => readMask s
  | .status  => readStatus s
  | .oamaddr => readOamaddr s
  | .oamdata => readOamdata s
  | .scroll  => readScroll s
  | .addr    => readAddr s
  | .data    => readData s

/-- The write of a window register (30_encoding.md R91). -/
def writeReg (r : Reg) (v : Byte) (s : State) : State :=
  match r with
  | .ctrl    => writeCtrl v s
  | .mask    => writeMask v s
  | .status  => writeStatus v s
  | .oamaddr => writeOamaddr v s
  | .oamdata => writeOamdata v s
  | .scroll  => writeScroll v s
  | .addr    => writeAddr v s
  | .data    => writeData v s

end Sys2Proof.Machine
end

