-- ==== Sys2Proof/Machine/Background.lean ====
section
/-! DEFINITION. The background tile fetch pipeline, BG_LINE (42_background.md R160 to R171), in the closed
form of R160, which R169 shows equal to the incremental fetch schedule. -/

namespace Sys2Proof.Machine

/-- The effective row `y + SCROLLY`, not wrapped (R161). -/
def bgRow (s : State) (y : Nat) : Nat := y + s.scrollY.toNat

/-- The sweep position `SCROLLX + x` of screen column `x` (R161). -/
def bgSweep (s : State) (x : Nat) : Nat := s.scrollX.toNat + x

/-- The in-table column of a sweep position: it restarts at 256 (R162). -/
def bgColumn (h : Nat) : Nat := if h ≥ 256 then h - 256 else h

/-- The nametable's base address for a sweep position: bit 0 of the select toggles from 256 on (R162). -/
def bgTable (nt : BitVec 2) (h : Nat) : Nat :=
  0x2000 + 0x400 * (nt ^^^ (if h ≥ 256 then 1#2 else 0#2)).toNat

/-- The tile's address (R163). -/
def bgTileAddr (nt : BitVec 2) (h ey : Nat) : Nat :=
  bgTable nt h + 32 * (ey / 8) + bgColumn h / 8

/-- The attribute byte's address (R164). -/
def bgAttrAddr (nt : BitVec 2) (h ey : Nat) : Nat :=
  bgTable nt h + 0x3C0 + 8 * (ey / 32) + bgColumn h / 32

/-- The cell of screen column `x` on line `y` (R160, R165 to R168): group bits above the colour, cell bit
4 zero. -/
def bgCell (s : State) (y x : Nat) : Cell5 :=
  let ey := bgRow s y
  let h := bgSweep s x
  let tile := memRead s (bgTileAddr (ctrlNT s.ctrl) h ey)
  let row := patternAddr (ctrlBGT s.ctrl) tile (ey % 8)
  let lo := memRead s row
  let hi := memRead s (row + 8)
  let attr := memRead s (bgAttrAddr (ctrlNT s.ctrl) h ey)
  0#1 ++ paletteGroup attr (bgColumn h) ey ++ pixelColour lo hi (7 - bgColumn h % 8)

/-- The store that holds `f x` in each of the columns 0..255. -/
def scanRow (f : Nat → Cell5) : Memory Cell5 :=
  (List.range 256).filterMap (fun x => if f x = 0#5 then none else some (x, f x))

/-- BG_LINE(y): every cell of SCAN is overwritten (R168), and nothing else changes. -/
def bgLine (y : Nat) (s : State) : State := s.setScan (scanRow (bgCell s y))

end Sys2Proof.Machine
end

