-- ==== Sys2Proof/Machine/Compositor.lean ====
section
/-! DEFINITION. The pixel compositor and framebuffer writer, PIXEL (44_compositor.md R210 to R216). -/

namespace Sys2Proof.Machine

/-- A cell of colour 0 is forced to the universal backdrop (R211). -/
def backdrop (c : Cell5) : Nat := if c.toNat % 4 = 0 then 0 else c.toNat

/-- The colour a cell resolves to: `MASTER_COLOURS[PAL[pidx(c)] & 0x3F]` (R212, R213). -/
def resolveCell (s : State) (c : Cell5) : Colour :=
  masterColour s.params (palRead s (pidx (backdrop c)) |>.extractLsb' 0 6).toFin

/-- PIXEL(x, y) (R210), with the framebuffer bound checked before the write (R214). -/
def pixel (x y : Nat) (s : State) : State :=
  if pixelIndex x y ≥ 61440 then raiseFault (.fbBounds x y) s
  else fbWrite s x y (resolveCell s (scanRead s.scan x))

end Sys2Proof.Machine
end

