-- ==== Sys2Proof/Machine/Sprites.lean ====
section
/-! DEFINITION. Sprite evaluation and overlay, SPR_LINE (43_sprites.md R180 to R196). -/

namespace Sys2Proof.Machine

/-- A sprite record as the scan reads it: its place `k` in scan order and its four bytes (30_encoding.md
R92). -/
structure SpriteRec where
  k    : Nat
  y    : Byte
  tile : Byte
  attr : Byte
  x    : Byte
  deriving DecidableEq, Repr

/-- What the overlay has built so far: the scanline buffer and the sprite-0 hit candidate. -/
structure Overlay where
  scan : Memory Cell5
  hit  : Option Nat
  deriving DecidableEq, Repr

/-- Record `k` of the scan: OAM bytes `(A + 4k + j) mod 256` (R181, R182). -/
def spriteRecord (s : State) (k : Nat) : SpriteRec where
  k    := k
  y    := oamRead s (s.oamaddr.toNat + 4 * k)
  tile := oamRead s (s.oamaddr.toNat + 4 * k + 1)
  attr := oamRead s (s.oamaddr.toNat + 4 * k + 2)
  x    := oamRead s (s.oamaddr.toNat + 4 * k + 3)

/-- The line test `Y <= y < Y + 8`, without wrap (R183). -/
def SpriteRec.inRange (r : SpriteRec) (y : Nat) : Bool := r.y.toNat ≤ y && y < r.y.toNat + 8

/-- The selected records: the first eight in range, in scan order (R184). -/
def spriteSelect (s : State) (y : Nat) : List SpriteRec :=
  (((List.range 64).map (spriteRecord s)).filter (fun r => r.inRange y)).take 8

/-- The order the selected records are drawn in: the one drawn last wins (R190). -/
def spriteOrder (p : SpritePriority) (sel : List SpriteRec) : List SpriteRec :=
  match p with
  | .firstWins => sel.reverse
  | .lastWins  => sel

/-- The tile row on line `y`, flipped vertically on request (R186). -/
def spriteRow (r : SpriteRec) (y : Nat) : Nat :=
  if attrVFLIP r.attr then 7 - (y - r.y.toNat) else y - r.y.toNat

/-- The plane bit of column `c`, flipped horizontally on request (R188). -/
def spriteBit (r : SpriteRec) (c : Nat) : Nat := if attrHFLIP r.attr then c else 7 - c

/-- The colour of column `c` on line `y`, 0 for transparent (R187, R188). -/
def spritePixel (s : State) (y : Nat) (r : SpriteRec) (c : Nat) : BitVec 2 :=
  let row := patternAddr (ctrlSPT s.ctrl) r.tile (spriteRow r y)
  pixelColour (memRead s row) (memRead s (row + 8)) (spriteBit r c)

/-- SPAL as cell bit 4 (R189). -/
def spritePaletteBit (p : SpritePalette) : BitVec 1 :=
  match p with
  | .sprite     => 1#1
  | .background => 0#1

/-- The sprite's cell (R189). -/
def spriteCell (p : SpritePalette) (r : SpriteRec) (pix : BitVec 2) : Cell5 :=
  spritePaletteBit p ++ attrPAL r.attr ++ pix

/-- A pixel is skipped when it is transparent, beyond the right edge, or in the left columns while
MASK.SPL = 0 (R191). -/
def spriteSkips (mask : Byte) (pix : BitVec 2) (sx : Nat) : Bool :=
  pix == 0#2 || sx ≥ 256 || (sx < 8 && !maskSPL mask)

/-- The smaller of the candidate so far and a new column (R192). -/
def leftmost (hit : Option Nat) (sx : Nat) : Option Nat :=
  match hit with
  | none   => some sx
  | some h => if sx < h then some sx else some h

/-- One column of one sprite (R191, R192). -/
def spriteColumn (s : State) (y : Nat) (r : SpriteRec) (o : Overlay) (c : Nat) : Overlay :=
  let pix := spritePixel s y r c
  let sx := r.x.toNat + c
  if spriteSkips s.mask pix sx then o
  else
    { scan := scanWrite o.scan sx (spriteCell s.params.palette r pix)
      hit  := if r.k = 0 then leftmost o.hit sx else o.hit }

/-- The eight columns of one sprite, left to right (R188). -/
def spriteDraw (s : State) (y : Nat) (o : Overlay) (r : SpriteRec) : Overlay :=
  (List.range 8).foldl (spriteColumn s y r) o

/-- The overlay of line `y` (R180). -/
def spriteOverlay (s : State) (y : Nat) : Overlay :=
  (spriteOrder s.params.priority (spriteSelect s y)).foldl (spriteDraw s y)
    { scan := s.scan, hit := none }

/-- A candidate of 255 counts as no hit (R193). -/
def hitColumn (hit : Option Nat) : Option (Fin 255) :=
  match hit with
  | none   => none
  | some h => if lt : h < 255 then some ⟨h, lt⟩ else none

/-- `HITCOL <- SPR_LINE(y)`: SCAN and HITCOL are written, and nothing else (R180; 45_timing.md R222). -/
def spriteLine (y : Nat) (s : State) : State :=
  (s.setScan (spriteOverlay s y).scan).setHitcol (hitColumn (spriteOverlay s y).hit)

end Sys2Proof.Machine
end

