-- ==== Sys2Proof/Machine/Timing.lean ====
section
/-! DEFINITION. The timing state machine, DOT_STEP (45_timing.md R220 to R229), and the frame-ready query
(R230). Each part of DOT_STEP applies where its own condition on the cursor holds. -/

namespace Sys2Proof.Machine

/-- Frame start, at dot (0, 0) (R221): HITCOL stays. -/
def frameStart (s : State) : State :=
  if s.dot.val = 0 ∧ s.line.val = 0 then
    ((s.setScan []).setStatus (clearS0H (clearVBL s.status))).setIpend false
  else s

/-- The background half of the line render (R222). -/
def renderBackground (s : State) : State :=
  if maskBGE s.mask then bgLine s.line.val s else s

/-- The sprite half of the line render (R222). -/
def renderSprites (s : State) : State :=
  if maskSPE s.mask then spriteLine s.line.val s else s

/-- Line render, at dot 0 of a visible line: background, then sprites (R222). -/
def lineRender (s : State) : State :=
  if s.dot.val = 0 ∧ s.line.val < 240 then renderSprites (renderBackground s) else s

/-- Vblank entry, at dot (1, 241) (R223). -/
def vblankEntry (s : State) : State :=
  if s.dot.val = 1 ∧ s.line.val = 241 then (s.setStatus (setVBL s.status)).setIpend true else s

/-- The sprite-0 check: S0H is set where the dot is the remembered column (R224). -/
def spriteZeroCheck (s : State) : State :=
  if s.hitcol.map Fin.val = some s.dot.val then s.setStatus (setS0H s.status) else s

/-- A visible dot: the sprite-0 check before the pixel (R224). -/
def visibleDot (s : State) : State :=
  if s.dot.val < 256 ∧ s.line.val < 240 then pixel s.dot.val s.line.val (spriteZeroCheck s) else s

/-- The hblank reset of OAMADDR, at dots 256..340 of a visible line with MASK.SPE = 1 (R225). -/
def hblankReset (s : State) : State :=
  if 256 ≤ s.dot.val ∧ s.line.val < 240 ∧ maskSPE s.mask then s.setOamaddr 0#8 else s

/-- The dot after `d` on its line, and 0 after 340 (R226). -/
def nextDot (d : Fin 341) : Fin 341 := if h : d.val + 1 < 341 then ⟨d.val + 1, h⟩ else 0

/-- The line of the next dot (R226). -/
def nextLine (d : Fin 341) (l : Fin 262) : Fin 262 :=
  if d.val + 1 < 341 then l else if h : l.val + 1 < 262 then ⟨l.val + 1, h⟩ else 0

/-- The dot counter and the cursor advance (R226, R227). -/
def advanceCursor (s : State) : State :=
  ((s.setTotdots (s.totdots + 1)).setDot (nextDot s.dot)).setLine (nextLine s.dot s.line)

/-- What DOT_STEP does before the counter advances, up to and with the pixel (R229). -/
def dotRender (s : State) : State := visibleDot (vblankEntry (lineRender (frameStart s)))

/-- DOT_STEP, in the order of R229. A fault of the pixel aborts the rest (60_exceptions.md R260). -/
def dotStep (s : State) : State :=
  if (dotRender s).fault.isSome then dotRender s else advanceCursor (hblankReset (dotRender s))

/-- FRAME_READY (R230): true exactly when TOTDOTS > LASTREP + 89342, and then LASTREP <- TOTDOTS. -/
def frameReadyQuery (s : State) : Bool × State :=
  if s.totdots > s.lastrep + 89342 then (true, s.setLastrep s.totdots) else (false, s)

end Sys2Proof.Machine
end

