-- ==== Sys2Proof/Machine/Scheduler.lean ====
section
/-! DEFINITION. The bus/DMA scheduler: the dispatcher, the processor step, the NMI edge latch, the DMA byte
and the clock unit (46_scheduler.md R240 to R254). -/

namespace Sys2Proof.Machine

/-- `a in PPU_WINDOW` (00_scope.md R13). -/
def inWindow (p : Params) (a : Addr16) : Bool :=
  p.window.any (fun r => r.first ≤ a && a ≤ r.last)

/-- DISPATCH_READ(a) (R254, 41_registers.md R138): the byte, and the state after the read's effects. -/
def dispatchRead (a : Addr16) (s : State) : Byte × State :=
  if inWindow s.params a then readReg (regOfIdx (windowIndex a)) s
  else if a = s.params.dmaTrigger then readDma s
  else busRead a s

/-- DISPATCH_WRITE(a, v) (R254, R248). -/
def dispatchWrite (a : Addr16) (v : Byte) (s : State) : State :=
  if inWindow s.params a then writeReg (regOfIdx (windowIndex a)) v s
  else if a = s.params.dmaTrigger then writeDma v s
  else s

/-- RUN_STEP (R245): the step's accesses one at a time, in the order issued; at its end the processor has
its new state. Answers the step's `busy`. -/
def runStep : CpuStep → State → Bool × State
  | .read a k, s       => runStep (k (dispatchRead a s).1) (dispatchRead a s).2
  | .write a v next, s => runStep next (dispatchWrite a v s)
  | .done s' busy, s   => (busy, s.setCpu s')

/-- The NMI sample of an instruction boundary: raise on a rising edge, then latch the signal (R247,
R252). -/
def sampleNmi (s : State) : State :=
  (if nmiOut s && !s.nmiprev then deliverNmi s else s).setNmiprev (nmiOut s)

/-- Perform a processor step, then the sample if the step completed an instruction (R245, R246). -/
def performStep (c : CpuStep) (s : State) : State :=
  if (runStep c s).1 then (runStep c s).2 else sampleNmi (runStep c s).2

/-- A stepped unit: the step of the processor in its present state (R242). -/
def processorStep (s : State) : State := performStep (cpuStep s.cpu) s

/-- The DMA state after byte `count` of `page`: byte 255 ends the transfer (R250). -/
def nextDma (page : Byte) (count : Fin 256) : Dma :=
  if h : count.val + 1 < 256 then .active page ⟨count.val + 1, h⟩ else .inactive

/-- A DMA unit: one byte from the bus into OAM at the cursor (R249, R250). -/
def dmaByte (page : Byte) (count : Fin 256) (s : State) : State :=
  (oamPush (dispatchRead (dmaSource page count) s).2
    (dispatchRead (dmaSource page count) s).1).setDma (nextDma page count)

/-- What a unit with index `k` does after its dot: one DMA byte, or the processor gated to every third
unit (R242, R244, R251). -/
def unitBranch (k : Nat) (s : State) : State :=
  match s.dma with
  | .inactive          => if k % 3 = 0 then processorStep s else s
  | .active page count => dmaByte page count s

/-- One clock unit (R240): the dot first (R241), then the branch, then CLK. A fault of the dot aborts the
rest (60_exceptions.md R260). -/
def clockUnit (s : State) : State :=
  if (dotStep s).fault.isSome then dotStep s
  else (unitBranch s.clk (dotStep s)).setClk (s.clk + 1)

end Sys2Proof.Machine
end

