-- ==== Sys2Proof/Machine/ClockPort.lean ====
section
/-! DEFINITION. The meaning of TICK, one clock unit (46_scheduler.md R240). -/

namespace Sys2Proof.Machine

/-- TICK (R240). -/
def execTick (s : State) : Host.Outcome State Fault Refusal := transactSilent clockUnit s

end Sys2Proof.Machine
end

