-- ==== Sys2Proof/Machine/DmaPort.lean ====
section
/-! DEFINITION. The meanings of the two DMA-trigger transactions (41_registers.md R136, R137). -/

namespace Sys2Proof.Machine

/-- WR_DMA (R136). -/
def execWrDma (page : Byte) (s : State) : Host.Outcome State Fault Refusal :=
  transactSilent (writeDma page) s

/-- RD_DMA (R137). -/
def execRdDma (s : State) : Host.Outcome State Fault Refusal := transactRead readDma s

end Sys2Proof.Machine
end

