-- ==== Sys2Proof/Machine/HostPort.lean ====
section
/-! DEFINITION. The meaning of FRAME_READY, the host's query (45_timing.md R230, 60_exceptions.md R271). -/

namespace Sys2Proof.Machine

/-- FRAME_READY (R230). -/
def execFrameReady (s : State) : Host.Outcome State Fault Refusal :=
  transact (fun s => (frameReadyQuery s).2.setResp (.ready (frameReadyQuery s).1)) s

end Sys2Proof.Machine
end

