-- ==== Sys2Proof/Machine/WindowPort.lean ====
section
/-! DEFINITION. The meanings of the sixteen register-window transactions (41_registers.md R120 to R135). -/

namespace Sys2Proof.Machine

/-- RD_CTRL (R120). -/
def execRdCtrl (s : State) : Host.Outcome State Fault Refusal := transactRead readCtrl s

/-- RD_MASK (R122). -/
def execRdMask (s : State) : Host.Outcome State Fault Refusal := transactRead readMask s

/-- RD_STATUS (R124). -/
def execRdStatus (s : State) : Host.Outcome State Fault Refusal := transactRead readStatus s

/-- RD_OAMADDR (R126). -/
def execRdOamaddr (s : State) : Host.Outcome State Fault Refusal := transactRead readOamaddr s

/-- RD_OAMDATA (R128). -/
def execRdOamdata (s : State) : Host.Outcome State Fault Refusal := transactRead readOamdata s

/-- RD_SCROLL (R130). -/
def execRdScroll (s : State) : Host.Outcome State Fault Refusal := transactRead readScroll s

/-- RD_ADDR (R132). -/
def execRdAddr (s : State) : Host.Outcome State Fault Refusal := transactRead readAddr s

/-- RD_DATA (R134). -/
def execRdData (s : State) : Host.Outcome State Fault Refusal := transactRead readData s

/-- WR_CTRL (R121). -/
def execWrCtrl (v : Byte) (s : State) : Host.Outcome State Fault Refusal :=
  transactSilent (writeCtrl v) s

/-- WR_MASK (R123). -/
def execWrMask (v : Byte) (s : State) : Host.Outcome State Fault Refusal :=
  transactSilent (writeMask v) s

/-- WR_STATUS (R125). -/
def execWrStatus (v : Byte) (s : State) : Host.Outcome State Fault Refusal :=
  transactSilent (writeStatus v) s

/-- WR_OAMADDR (R127). -/
def execWrOamaddr (v : Byte) (s : State) : Host.Outcome State Fault Refusal :=
  transactSilent (writeOamaddr v) s

/-- WR_OAMDATA (R129). -/
def execWrOamdata (v : Byte) (s : State) : Host.Outcome State Fault Refusal :=
  transactSilent (writeOamdata v) s

/-- WR_SCROLL (R131). -/
def execWrScroll (v : Byte) (s : State) : Host.Outcome State Fault Refusal :=
  transactSilent (writeScroll v) s

/-- WR_ADDR (R133). -/
def execWrAddr (v : Byte) (s : State) : Host.Outcome State Fault Refusal :=
  transactSilent (writeAddr v) s

/-- WR_DATA (R135). -/
def execWrData (v : Byte) (s : State) : Host.Outcome State Fault Refusal :=
  transactSilent (writeData v) s

end Sys2Proof.Machine
end

