-- ==== Sys2Proof/Machine/Dispatch.lean ====
section
/-! DEFINITION. One arm per transaction. -/

namespace Sys2Proof.Machine

/-- What each transaction does. -/
def exec (i : Instr) (s : State) : Host.Outcome State Fault Refusal :=
  match i with
  | .rdCtrl => Sys2Proof.Machine.execRdCtrl s
  | .rdMask => Sys2Proof.Machine.execRdMask s
  | .rdStatus => Sys2Proof.Machine.execRdStatus s
  | .rdOamaddr => Sys2Proof.Machine.execRdOamaddr s
  | .rdOamdata => Sys2Proof.Machine.execRdOamdata s
  | .rdScroll => Sys2Proof.Machine.execRdScroll s
  | .rdAddr => Sys2Proof.Machine.execRdAddr s
  | .rdData => Sys2Proof.Machine.execRdData s
  | .wrCtrl v => Sys2Proof.Machine.execWrCtrl v s
  | .wrMask v => Sys2Proof.Machine.execWrMask v s
  | .wrStatus v => Sys2Proof.Machine.execWrStatus v s
  | .wrOamaddr v => Sys2Proof.Machine.execWrOamaddr v s
  | .wrOamdata v => Sys2Proof.Machine.execWrOamdata v s
  | .wrScroll v => Sys2Proof.Machine.execWrScroll v s
  | .wrAddr v => Sys2Proof.Machine.execWrAddr v s
  | .wrData v => Sys2Proof.Machine.execWrData v s
  | .wrDma page => Sys2Proof.Machine.execWrDma page s
  | .rdDma => Sys2Proof.Machine.execRdDma s
  | .tick => Sys2Proof.Machine.execTick s
  | .frameReady => Sys2Proof.Machine.execFrameReady s

end Sys2Proof.Machine
end

