-- ==== Sys2Proof/Machine/Step.lean ====
section
/-! DEFINITION. One step: perform the first transaction word of the script (30_encoding.md R106). -/

namespace Sys2Proof.Machine

/-- One step. With no word left the host has stopped issuing transactions and nothing happens
(60_exceptions.md R274, log entry 1); a reserved word is refused (R262). -/
def step (s : State) : Host.Outcome State Fault Refusal :=
  match s.script with
  | [] => .next s
  | w :: rest =>
    match decode w with
    | .ok i      => exec i (s.setScript rest)
    | .error why => .refused (.reserved why)

/-- `s` with the word that the opcode table numbers `w` issued before all others. -/
def State.withFetchWord (s : State) (nbits w : Nat) : State :=
  s.setScript (tableWord nbits w :: s.script)

end Sys2Proof.Machine
end

