-- ==== Sys2Proof/Machine/Script.lean ====
section
/-! DEFINITION. Script lines and pseudo-operations as lists of transactions (30_encoding.md R104, R105). -/

namespace Sys2Proof.Machine

/-- One line of a script (R104), the pseudo-operations of R105 among them. -/
inductive ScriptLine where
  /-- `RD <REG>`. -/
  | rd (r : Reg)
  /-- `WR <REG>, #v`. -/
  | wr (r : Reg) (v : Byte)
  /-- `DMA #page`. -/
  | dma (page : Byte)
  /-- `RD DMA`. -/
  | rdDma
  /-- `TICK n`. -/
  | tick (n : Nat)
  /-- `FRAME?`. -/
  | frame
  /-- `SETADDR #hhll`. -/
  | setAddr (a : Addr16)
  /-- `SETSCROLL #x, #y`. -/
  | setScroll (x y : Byte)
  /-- `FILL #v, n`. -/
  | fill (v : Byte) (n : Nat)
  /-- `OAMW #a, b0, b1, ...`. -/
  | oamw (a : Byte) (bytes : List Byte)
  deriving DecidableEq, Repr

/-- The transactions a line stands for (R105). -/
def lineInstrs : ScriptLine → List Instr
  | .rd r          => [readInstr r]
  | .wr r v        => [writeInstr r v]
  | .dma page      => [.wrDma page]
  | .rdDma         => [.rdDma]
  | .tick n        => List.replicate n .tick
  | .frame         => [.frameReady]
  | .setAddr a     => [.wrAddr (a.extractLsb' 8 8), .wrAddr (a.extractLsb' 0 8)]
  | .setScroll x y => [.wrScroll x, .wrScroll y]
  | .fill v n      => List.replicate n (.wrData v)
  | .oamw a bytes  => .wrOamaddr a :: bytes.map .wrOamdata

/-- The words of a script (R106). -/
def scriptWords (lines : List ScriptLine) : List TWord := (lines.flatMap lineInstrs).map encode

/-- `s` with a script issued after the words that wait. -/
def issueScript (s : State) (lines : List ScriptLine) : State :=
  s.setScript (s.script ++ scriptWords lines)

end Sys2Proof.Machine
end

