-- ==== Sys2Proof/Safety.lean ====
section
/-! DEFINITION. What counts as a safe state and a safe run: no fault, stores in canonical form, reserved
bits at zero, the cursor where the clock says, the flags inside their windows. -/

namespace Sys2Proof.Machine

/-- The machine has not faulted (60_exceptions.md R260, R261). -/
abbrev State.Live (s : State) : Prop := s.fault = none

/-- The bytes listed in a RAM-CART (92_eei_decisions.md D57); an external cartridge lists none. -/
def cartCells (c : CartState) : Memory Byte :=
  match c with
  | .external _ => []
  | .ram cells  => cells

/-- The cartridge's bytes, where the cartridge is RAM-CART, are in canonical form and lie below 0x3F00
(92_eei_decisions.md D57). -/
abbrev cartWf (c : CartState) : Prop := Memory.wf 0#8 0x3F00 (cartCells c)

/-- Only reachable palette cells are listed: 0, and every index that is no multiple of 4 (10_state.md
R45). -/
abbrev palReachable (m : Memory Byte) : Prop := ∀ c ∈ m, c.1 = 0 ∨ c.1 % 4 ≠ 0

/-- Every store is in canonical form and within its bounds (10_state.md R44 to R47). -/
abbrev State.StoresWf (s : State) : Prop :=
  Memory.wf 0#8 256 s.oam ∧ Memory.wf 0#8 32 s.pal ∧ palReachable s.pal ∧
    Memory.wf 0#5 256 s.scan ∧ Memory.fbWf s.fb ∧ cartWf s.cart

/-- STATUS[5:0] are 0 (10_state.md R39). -/
abbrev State.StatusLowZero (s : State) : Prop := s.status.extractLsb' 0 6 = 0#6

/-- The unit with index k executes dot (k mod 341, (k div 341) mod 262), and CLK = TOTDOTS
(46_scheduler.md R255). -/
abbrev State.OnGrid (s : State) : Prop :=
  s.totdots = s.clk ∧ s.dot.val = s.clk % 341 ∧ s.line.val = s.clk / 341 % 262

/-- IPEND is 1 exactly from after the unit of dot (1, 241) until frame start clears it
(45_timing.md R221, R223, R228). -/
abbrev State.IpendWindow (s : State) : Prop :=
  s.ipend = true ↔ (82183 ≤ s.clk % 89342 ∨ (s.clk % 89342 = 0 ∧ 0 < s.clk))

/-- VBL is never 1 without IPEND: both are set together, and frame start clears both (45_timing.md R221,
R223). -/
abbrev State.VblankPending (s : State) : Prop := statusVBL s.status = true → s.ipend = true

/-- The framebuffer cells written so far are those whose unit 341 y + x has run
(70_reset_and_hazards.md R282). -/
abbrev State.FbProgress (s : State) : Prop :=
  ∀ x y : Nat, x < 256 → y < 240 →
    ((cellLookup s.fb (pixelIndex x y)).isSome = true ↔ 341 * y + x < s.clk)

/-- A step from `s` neither faults nor leaves the machine faulted. A refusal, which a reserved word
brings (60_exceptions.md R262), is safe: it proves nothing. -/
def State.SafeStep (s : State) : Prop :=
  match step s with
  | .next t    => t.Live
  | .fault _   => False
  | .refused _ => True

/-- `n` clock units in a row, stopping where one gives no next state. -/
def ticks : Nat → State → Host.Outcome State Fault Refusal
  | 0, s => .next s
  | n + 1, s =>
    match exec .tick s with
    | .next t    => ticks n t
    | .fault r   => .fault r
    | .refused r => .refused r

/-- `s'` is `s` but for bits that no rule reads: CTRL[6:5], MASK[0], MASK[1], MASK[7:5] and VTOG
(10_state.md R26, R27, R30, R31, R35, R42). -/
def SameButUnread (s s' : State) : Prop :=
  ∃ (c m : Byte) (g : Bool),
    c.extractLsb' 0 5 = s.ctrl.extractLsb' 0 5 ∧ c.getLsbD 7 = s.ctrl.getLsbD 7 ∧
    m.extractLsb' 2 3 = s.mask.extractLsb' 2 3 ∧
    s' = ((s.setCtrl c).setMask m).setVtog g

end Sys2Proof.Machine
end

