-- ==== Sys2Proof/Certificates/Slice0/Obligations.lean ====
section
/-! DEFINITION. The statements for the provers. Each docstring names the rule of spec/ it comes from; a
clause that is the model's own choice names its log entry. -/

open Sys2Proof Sys2Proof.Machine

/-! ### Encoding -/

/-- 30_encoding.md R101: the decoder gives back the transaction of every encoded word, whatever its
operand. -/
def Obligations.DecodeInvertsEncode : Prop :=
  ∀ i : Instr, decode (encode i) = .ok i

/-- 30_encoding.md R101: an accepted word is the word of the transaction it decodes to, so no two words
share a meaning and no bit is dropped. -/
def Obligations.AcceptedWordReencodes : Prop :=
  ∀ (x : TWord) (i : Instr), decode x = .ok i → encode i = x

/-- 30_encoding.md R102: the reserved words are exactly those with RES ≠ 00, with IDX ≠ 000 off the
window, with DATA ≠ 0 on a read, or with W = 1 on the clock or host port. -/
def Obligations.ReservedWordsAreExactly : Prop :=
  ∀ x : TWord, (∃ why, decode x = .error why) ↔
    (x.extractLsb' 11 2 ≠ 0#2 ∨
      (x.extractLsb' 14 2 ≠ 0#2 ∧ x.extractLsb' 8 3 ≠ 0#3) ∨
      (x.getLsbD 13 = false ∧ x.extractLsb' 0 8 ≠ 0#8) ∨
      (x.getLsbD 13 = true ∧ (x.extractLsb' 14 2 = 2#2 ∨ x.extractLsb' 14 2 = 3#2)))

/-- 30_encoding.md R101, 95_test_vectors.md section 0 and V-E1 to V-E7: words written out from the spec
decode as it says. -/
def Obligations.SpecWordsDecode : Prop :=
  decode 0x0000#16 = .ok .rdCtrl ∧ decode 0x0200#16 = .ok .rdStatus ∧
  decode 0x0700#16 = .ok .rdData ∧ decode 0x2090#16 = .ok (.wrCtrl 0x90#8) ∧
  decode 0x2414#16 = .ok (.wrOamdata 20#8) ∧ decode 0x2621#16 = .ok (.wrAddr 0x21#8) ∧
  decode 0x6002#16 = .ok (.wrDma 0x02#8) ∧ decode 0x4000#16 = .ok .rdDma ∧
  decode 0x8000#16 = .ok .tick ∧ decode 0xC000#16 = .ok .frameReady ∧
  decode 0x0001#16 = .error .dataOnRead ∧ decode 0x0800#16 = .error .resNonzero ∧
  decode 0x4100#16 = .error .idxOffWindow ∧ decode 0xA000#16 = .error .writeOnClockOrHost

/-! ### The step -/

/-- 30_encoding.md R106: a step performs the first word that waits, and the others wait on; a word put
first by `withFetchWord` is the next one performed (the queue is the model's own, log entry 1). -/
def Obligations.StepRunsDecodedWord : Prop :=
  (∀ (s : State) (w : TWord) (rest : List TWord) (i : Instr),
    s.script = w :: rest → decode w = .ok i → step s = exec i (s.setScript rest)) ∧
  (∀ (s : State) (nbits w : Nat) (i : Instr),
    decodeTableWord nbits w = some i → step (s.withFetchWord nbits w) = exec i s)

/-- 60_exceptions.md R262: a reserved word is refused. -/
def Obligations.ReservedWordRefused : Prop :=
  ∀ (s : State) (w : TWord) (rest : List TWord) (why : Reserved),
    s.script = w :: rest → decode w = .error why → step s = .refused (.reserved why)

/-- 60_exceptions.md R274: when no transaction is issued, nothing happens (the model's choice of form, log
entry 1). -/
def Obligations.NoWordLeavesState : Prop :=
  ∀ s : State, s.script = [] → step s = .next s

/-- 60_exceptions.md R260: a faulted machine is quiescent, every later transaction leaves the state
unchanged. -/
def Obligations.FaultedMachineQuiescent : Prop :=
  ∀ (i : Instr) (s : State), s.fault ≠ none → exec i s = .next s

/-! ### Power-on -/

/-- 70_reset_and_hazards.md R280: the values the spec gives at power-on; the framebuffer is the free
value of log entry 4. -/
def Obligations.PowerOnValues : Prop :=
  State.reset.ctrl = 0x00#8 ∧ State.reset.mask = 0x00#8 ∧ State.reset.status = 0x00#8 ∧
  State.reset.scrollX = 0x00#8 ∧ State.reset.scrollY = 0x00#8 ∧ State.reset.vaddr = 0x0000#14 ∧
  State.reset.vtog = false ∧ State.reset.oamaddr = 0x00#8 ∧
  (∀ i, oamRead State.reset i = 0x00#8) ∧ (∀ i, palRead State.reset i = 0x00#8) ∧
  (∀ x, scanRead State.reset.scan x = 0#5) ∧
  (∀ x y, fbRead State.reset x y = Config.fbPowerOn (y * 256 + x)) ∧
  State.reset.dot.val = 0 ∧ State.reset.line.val = 0 ∧ State.reset.ipend = false ∧
  State.reset.hitcol = none ∧ State.reset.clk = 0 ∧ State.reset.dma = .inactive ∧
  State.reset.nmiprev = false ∧ State.reset.totdots = 0 ∧ State.reset.lastrep = 0 ∧
  State.reset.fault = none ∧ nmiOut State.reset = false

/-! ### The register window and the DMA trigger -/

/-- 41_registers.md R120, R122, R126, R130, R132, R137: the read of a write-only register or of the DMA
trigger returns a free byte and changes nothing of the block (the draw counter is the model's own, log
entry 3). It completes in every state that has not faulted. -/
def Obligations.WriteOnlyReadsDraw : Prop :=
  ∀ (i : Instr) (s : State), s.Live →
    (i = .rdCtrl ∨ i = .rdMask ∨ i = .rdOamaddr ∨ i = .rdScroll ∨ i = .rdAddr ∨ i = .rdDma) →
    exec i s = .next ((s.setDraws (s.draws + 1)).setResp (.byte (Config.draw8 s.draws)))

/-- 41_registers.md R124: RD_STATUS returns STATUS, clears VBL, and leaves S0H and everything else as they
were. -/
def Obligations.ReadStatusClearsOnlyVbl : Prop :=
  decode 0x0200#16 = .ok .rdStatus ∧
  ∀ s : State, s.Live →
    exec .rdStatus s = .next ((s.setStatus (s.status &&& 0x7F#8)).setResp (.byte s.status)) ∧
    statusVBL (s.status &&& 0x7F#8) = false ∧
    statusS0H (s.status &&& 0x7F#8) = statusS0H s.status

/-- 41_registers.md R128: RD_OAMDATA returns the byte at the cursor, and the cursor stays. -/
def Obligations.ReadOamdataKeepsCursor : Prop :=
  decode 0x0400#16 = .ok .rdOamdata ∧
  ∀ s : State, s.Live →
    exec .rdOamdata s = .next (s.setResp (.byte (oamRead s s.oamaddr.toNat)))

/-- 41_registers.md R134: RD_DATA returns MemRead(VADDR) at once and advances VADDR by 1 or 32, modulo
0x4000; the cartridge and the palette stay. -/
def Obligations.ReadDataReturnsAtOnce : Prop :=
  decode 0x0700#16 = .ok .rdData ∧
  ∀ s : State, s.Live → ∃ t, exec .rdData s = .next t ∧
    t = (s.setVaddr t.vaddr).setResp (.byte (memRead s s.vaddr.toNat)) ∧
    t.vaddr.toNat = (s.vaddr.toNat + (if s.ctrl.getLsbD 2 then 32 else 1)) % 0x4000

/-- 41_registers.md R121, R123, R127: WR_CTRL, WR_MASK and WR_OAMADDR store all 8 bits and change nothing
else. -/
def Obligations.StoringWritesStore : Prop :=
  ∀ (v : Byte) (s : State), s.Live →
    exec (.wrCtrl v) s = .next ((s.setCtrl v).setResp .none) ∧
    exec (.wrMask v) s = .next ((s.setMask v).setResp .none) ∧
    exec (.wrOamaddr v) s = .next ((s.setOamaddr v).setResp .none)

/-- 41_registers.md R125: WR_STATUS is accepted and its value discarded. -/
def Obligations.WriteStatusDiscarded : Prop :=
  ∀ (v : Byte), decode (0x2200#16 ||| v.setWidth 16) = .ok (.wrStatus v) ∧
    ∀ s : State, s.Live → exec (.wrStatus v) s = .next (s.setResp .none)

/-- 41_registers.md R129: WR_OAMDATA writes OAM at the cursor, which then advances modulo 256; every other
OAM byte and everything else stays. -/
def Obligations.WriteOamdataStoresAndIncrements : Prop :=
  (∀ v : Byte, decode (0x2400#16 ||| v.setWidth 16) = .ok (.wrOamdata v)) ∧
  ∀ (v : Byte) (s : State), s.Live → ∃ t, exec (.wrOamdata v) s = .next t ∧
    t = ((s.setOam t.oam).setOamaddr t.oamaddr).setResp .none ∧
    t.oamaddr.toNat = (s.oamaddr.toNat + 1) % 256 ∧
    ∀ i, i < 256 → oamRead t i = if i = s.oamaddr.toNat then v else oamRead s i

/-- 41_registers.md R131: WR_SCROLL shifts the latch, X <- Y and Y <- v, and touches nothing else; so two
writes a, b leave X = a and Y = b whatever was there. -/
def Obligations.WriteScrollShiftsLatch : Prop :=
  (∀ (v : Byte), decode (0x2500#16 ||| v.setWidth 16) = .ok (.wrScroll v)) ∧
  (∀ (v : Byte) (s : State), s.Live →
    exec (.wrScroll v) s = .next (((s.setScrollX s.scrollY).setScrollY v).setResp .none)) ∧
  (∀ (a b : Byte) (s : State), s.Live → ∃ t u, exec (.wrScroll a) s = .next t ∧
    exec (.wrScroll b) t = .next u ∧ u.scrollX = a ∧ u.scrollY = b)

/-- 41_registers.md R133: WR_ADDR makes VADDR `((VADDR & 0x3F) << 8) | v`, flips VTOG, and touches nothing
else; so consecutive writes h, l leave VADDR = `((h & 0x3F) << 8) | l` whatever it was before. -/
def Obligations.WriteAddrShiftsPointer : Prop :=
  (∀ v : Byte, decode (0x2600#16 ||| v.setWidth 16) = .ok (.wrAddr v)) ∧
  (∀ (v : Byte) (s : State), s.Live → ∃ t, exec (.wrAddr v) s = .next t ∧
    t = ((s.setVaddr t.vaddr).setVtog (!s.vtog)).setResp .none ∧
    t.vaddr.toNat = (s.vaddr.toNat % 0x40) * 0x100 + v.toNat) ∧
  (∀ (h l : Byte) (s : State), s.Live → ∃ t u, exec (.wrAddr h) s = .next t ∧
    exec (.wrAddr l) t = .next u ∧ u.vaddr.toNat = (h.toNat % 0x40) * 0x100 + l.toNat)

/-- 41_registers.md R135, 20_memory.md R65: WR_DATA writes the byte at VADDR, to the palette cell that
VADDR aliases or to the cartridge, advances VADDR by 1 or 32 modulo 0x4000, and touches nothing else.
With RAM-CART every video address that does not reach the cell written reads as before. -/
def Obligations.WriteDataStoresAndAdvances : Prop :=
  ∀ (v : Byte) (s : State), s.Live → ∃ t, exec (.wrData v) s = .next t ∧
    t = (((s.setPal t.pal).setCart t.cart).setVaddr t.vaddr).setResp .none ∧
    t.vaddr.toNat = (s.vaddr.toNat + (if s.ctrl.getLsbD 2 then 32 else 1)) % 0x4000 ∧
    (s.vaddr.toNat < 0x3F00 → t.pal = s.pal ∧ t.cart = writeChipSpace s.vaddr v s.cart) ∧
    (0x3F00 ≤ s.vaddr.toNat → t.cart = s.cart ∧
      ∀ j, palRead t j = if j = pidx s.vaddr.toNat then v else palRead s j) ∧
    (∀ m, s.cart = .ram m → ∀ a, a < 0x4000 →
      memRead t a =
        if (if a < 0x3F00 then a else 0x3F00 + pidx a) =
            (if s.vaddr.toNat < 0x3F00 then s.vaddr.toNat else 0x3F00 + pidx s.vaddr.toNat)
        then v else memRead s a)

/-- 10_state.md R23: after a data-port access VADDR advances by 1 when INC = 0 and by 32 when INC = 1, by
the value of INC at the access. -/
def Obligations.DataPortIncrement : Prop :=
  (∀ c : Byte, ctrlINC c = c.getLsbD 2) ∧
  ∀ (i : Instr) (v : Byte) (s : State), s.Live → (i = .rdData ∨ i = .wrData v) →
    ∃ t, exec i s = .next t ∧ t.vaddr = s.vaddr + (if ctrlINC s.ctrl then 32#14 else 1#14)

/-- 41_registers.md R136: WR_DMA makes DMA active on the page with its counter at 0, during a transfer
too, and touches nothing else. -/
def Obligations.WriteDmaActivates : Prop :=
  (∀ page : Byte, decode (0x6000#16 ||| page.setWidth 16) = .ok (.wrDma page)) ∧
  ∀ (page : Byte) (s : State), s.Live →
    exec (.wrDma page) s = .next ((s.setDma (.active page 0)).setResp .none)

/-- 45_timing.md R230: FRAME_READY answers true exactly when TOTDOTS > LASTREP + 89342, and then LASTREP
becomes TOTDOTS; it touches nothing else. -/
def Obligations.FrameReadyIsStrict : Prop :=
  decode 0xC000#16 = .ok .frameReady ∧
  ∀ s : State, s.Live →
    (s.totdots > s.lastrep + 89342 →
      exec .frameReady s = .next ((s.setLastrep s.totdots).setResp (.ready true))) ∧
    (s.totdots ≤ s.lastrep + 89342 →
      exec .frameReady s = .next (s.setResp (.ready false)))

/-- 30_encoding.md R105: the pseudo-operation SETADDR #hhll, run word by word from the queue, leaves VADDR =
hhll mod 0x4000 and VTOG as it was, and touches nothing else but the queue (the queue is the model's
own, log entry 1). -/
def Obligations.SetAddrFromAnywhere : Prop :=
  ∀ (a : Addr16) (s : State), s.Live → s.script = [] →
    ∃ t u, step (issueScript s [.setAddr a]) = .next t ∧ step t = .next u ∧
      u = (s.setVaddr u.vaddr).setResp .none ∧ u.vaddr.toNat = a.toNat % 0x4000

/-! ### Memory -/

/-- 20_memory.md R62: every video access is made at its address mod 0x4000. -/
def Obligations.VideoAccessReduces : Prop :=
  ∀ (s : State) (a : Nat) (v : Byte),
    memRead s a = memRead s (a % 0x4000) ∧ memWrite s a v = memWrite s (a % 0x4000) v

/-- 20_memory.md R64: MemRead is the palette byte at and above 0x3F00 and the cartridge's byte below. -/
def Obligations.MemReadMap : Prop :=
  ∀ (s : State) (a : Nat),
    (0x3F00 ≤ a % 0x4000 → memRead s a = palRead s (pidx (a % 0x4000))) ∧
    (a % 0x4000 < 0x3F00 → memRead s a = readChipSpace s.cart (BitVec.ofNat 14 a))

/-- 20_memory.md R67: the palette index function mirrors mod 32 and aliases index 0 of every 4-entry group
to cell 0; data-port reads, data-port writes and compositor lookups all go through it: a data write at any
address from 0x3F00 on writes the cell of its index and no other cell, which at 0x3F00, 0x3F04, ..., 0x3F1C
and their mirrors is PAL[0]. -/
def Obligations.PaletteAliasing : Prop :=
  (∀ a : Nat, pidx a = if a % 32 % 4 = 0 then 0 else a % 32) ∧
  (∀ (s : State) (a : Nat), 0x3F00 ≤ a → a < 0x4000 → memRead s a = palRead s (pidx a)) ∧
  (∀ (s : State) (c : Cell5), resolveCell s c =
    masterColour s.params (Fin.ofNat 64 (palRead s (pidx c.toNat)).toNat)) ∧
  (∀ (v : Byte) (s : State), s.Live → 0x3F00 ≤ s.vaddr.toNat →
    ∃ t, exec (.wrData v) s = .next t ∧ t.cart = s.cart ∧
      (∀ j, palRead t j = if j = pidx s.vaddr.toNat then v else palRead s j) ∧
      (s.vaddr.toNat % 4 = 0 → palRead t 0 = v))

/-- 20_memory.md R65, R67: with RAM-CART a video read after a video write gives the byte written, at every
address that reaches the same cell, and the old byte elsewhere. -/
def Obligations.VideoReadAfterWrite : Prop :=
  ∀ (s : State) (m : Memory Byte) (a b : Nat) (v : Byte), s.cart = .ram m →
    memRead (memWrite s a v) b =
      if (if a % 0x4000 < 0x3F00 then a % 0x4000 else 0x3F00 + pidx a) =
          (if b % 0x4000 < 0x3F00 then b % 0x4000 else 0x3F00 + pidx b)
      then v else memRead s b

/-- 41_registers.md R138: at every address the dispatcher routes to the window, the access is that of the
register with the address's low three bits, and it acts as the register's transaction does; under the
default window a write to 0x2008 is WR_CTRL and one to 0x3FFF is WR_DATA. A script's transaction keeps
the answer in `resp` (log entry 2). -/
def Obligations.WindowAliasesModEight : Prop :=
  (∀ (s : State) (a : Addr16) (v : Byte), inWindow s.params a = true →
    dispatchRead a s = readReg (regOfIdx (BitVec.ofNat 3 (a.toNat % 8))) s ∧
    dispatchWrite a v s = writeReg (regOfIdx (BitVec.ofNat 3 (a.toNat % 8))) v s) ∧
  (∀ (r : Reg) (s : State), s.Live →
    exec (readInstr r) s = .next ((readReg r s).2.setResp (.byte (readReg r s).1))) ∧
  (∀ (r : Reg) (v : Byte) (s : State), s.Live →
    exec (writeInstr r v) s = .next ((writeReg r v s).setResp .none)) ∧
  (∀ (s : State) (v : Byte), s.params.window = Params.default.window →
    dispatchWrite 0x2008#16 v s = writeCtrl v s ∧ dispatchWrite 0x3FFF#16 v s = writeData v s)

/-- 46_scheduler.md R254: off the window, an access at the trigger address is RD_DMA, a draw, or WR_DMA;
an access elsewhere reads the bus value (a draw, one fixed unknown function, or BUS-PAT: log entry 8) and
writes nothing of the block. -/
def Obligations.DispatcherOutsideWindow : Prop :=
  ∀ (s : State) (a : Addr16) (v : Byte), inWindow s.params a = false →
    (a = s.params.dmaTrigger →
      dispatchRead a s = (Config.draw8 s.draws, s.setDraws (s.draws + 1)) ∧
      dispatchWrite a v s = s.setDma (.active v 0)) ∧
    (a ≠ s.params.dmaTrigger →
      dispatchWrite a v s = s ∧
      dispatchRead a s = match s.params.bus with
        | .draw     => (Config.draw8 s.draws, s.setDraws (s.draws + 1))
        | .external => (Config.busRead a, s)
        | .pattern  => (BitVec.ofNat 8 (a.toNat % 256) ^^^ BitVec.ofNat 8 (a.toNat / 256), s))

/-! ### The clock unit -/

/-- 45_timing.md R226, R227, 46_scheduler.md R243, R245: every TICK adds 1 to CLK and to TOTDOTS and moves
the cursor one dot in row-major order, wrapping at 341 and at 262, whatever branch the unit takes and
whatever the processor does; no other transaction moves any of them. TICK completes in every state that
has not faulted, because every processor step ends (log entry 10). -/
def Obligations.TickAdvancesClockAndCursor : Prop :=
  (∀ s : State, s.Live → ∃ t, exec .tick s = .next t ∧
    t.clk = s.clk + 1 ∧ t.totdots = s.totdots + 1 ∧
    t.dot.val = (if s.dot.val = 340 then 0 else s.dot.val + 1) ∧
    t.line.val = (if s.dot.val = 340 then (if s.line.val = 261 then 0 else s.line.val + 1)
      else s.line.val)) ∧
  (∀ (i : Instr) (s t : State), i ≠ .tick → exec i s = .next t →
    t.clk = s.clk ∧ t.totdots = s.totdots ∧ t.dot = s.dot ∧ t.line = s.line)

/-- 46_scheduler.md R240, 10_state.md R54: what no TICK changes, whatever the processor does (its step ends,
log entry 10): LASTREP and FAULT. By the model's own choices it also keeps the parameters (log entry 6)
and the words that wait (log entry 1), and leaves no response (log entry 2). -/
def Obligations.TickFrame : Prop :=
  ∀ s : State, s.Live → ∃ t, exec .tick s = .next t ∧
    t.lastrep = s.lastrep ∧ t.fault = none ∧ t.params = s.params ∧ t.script = s.script ∧
    t.resp = .none

/-- 10_state.md R49: IPEND is 0 at power-on, set only at dot (1, 241) and cleared only at frame start; no
other transaction, a STATUS read among them, and no processor access changes it. -/
def Obligations.IpendChangesOnlyAtItsDots : Prop :=
  State.reset.ipend = false ∧
  ∀ (i : Instr) (s t : State), s.Live → exec i s = .next t →
    t.ipend =
      if i = .tick ∧ s.dot.val = 0 ∧ s.line.val = 0 then false
      else if i = .tick ∧ s.dot.val = 1 ∧ s.line.val = 241 then true
      else s.ipend

/-- 10_state.md R38: S0H is STATUS[6]; it is cleared solely at frame start, never by a STATUS read. -/
def Obligations.S0hClearedOnlyAtFrameStart : Prop :=
  (∀ s : State, statusS0H s.status = s.status.getLsbD 6) ∧
  ∀ (i : Instr) (s t : State), s.Live → exec i s = .next t →
    statusS0H s.status = true → statusS0H t.status = false →
    i = .tick ∧ s.dot.val = 0 ∧ s.line.val = 0

/-- 45_timing.md R221, R224: S0H after a TICK: set at a visible dot equal to the remembered column, cleared
at frame start otherwise, and kept elsewhere. Every processor step ends (log entry 10). -/
def Obligations.TickSpriteZeroFlag : Prop :=
  ∀ s : State, s.Live → ∃ t, exec .tick s = .next t ∧
    statusS0H t.status =
      if s.dot.val < 256 ∧ s.line.val < 240 ∧ t.hitcol.map Fin.val = some s.dot.val then true
      else if s.dot.val = 0 ∧ s.line.val = 0 then false
      else statusS0H s.status

/-- 45_timing.md R221, R223: VBL after a TICK: never 1 but where the dot sets it or leaves it; and exactly
that in a unit that steps no processor, in one that steps NOP-CPU, and in a DMA unit whose source lies
outside the window. Every processor step ends (log entry 10). -/
def Obligations.TickVblankFlag : Prop :=
  ∀ s : State, s.Live → ∃ t, exec .tick s = .next t ∧
    (statusVBL t.status = true →
      ¬(s.dot.val = 0 ∧ s.line.val = 0) ∧
        (s.dot.val = 1 ∧ s.line.val = 241 ∨ statusVBL s.status = true)) ∧
    ((s.dma = .inactive ∧ s.clk % 3 ≠ 0) ∨ (s.dma = .inactive ∧ ∃ n m, s.cpu = .nop n m) ∨
        (∃ page count, s.dma = .active page count ∧
          inWindow s.params (dmaSource page count) = false) →
      statusVBL t.status =
        if s.dot.val = 0 ∧ s.line.val = 0 then false
        else if s.dot.val = 1 ∧ s.line.val = 241 then true
        else statusVBL s.status)

/-- 10_state.md R50: HITCOL is None at power-on, and only the evaluator's run at dot 0 of a visible line
with MASK.SPE = 1 writes it; frame start does not. -/
def Obligations.HitcolOnlyByEvaluator : Prop :=
  State.reset.hitcol = none ∧
  ∀ (i : Instr) (s t : State), exec i s = .next t →
    ¬(i = .tick ∧ s.dot.val = 0 ∧ s.line.val < 240 ∧ maskSPE s.mask = true) →
    t.hitcol = s.hitcol

/-- 44_compositor.md R210 to R214, 45_timing.md R224: a visible dot writes its framebuffer cell with the
master colour of the palette byte (bits 5:0) of its scanline cell, backdrop for colour 0; every other
cell stays, and a dot outside the visible grid writes none. Every processor step ends (log entry 10). -/
def Obligations.TickWritesThePixel : Prop :=
  ∀ s : State, s.Live → ∃ t, exec .tick s = .next t ∧
    (s.dot.val < 256 → s.line.val < 240 →
      fbRead t s.dot.val s.line.val =
        masterColour s.params (Fin.ofNat 64 (palRead s
          (if (scanRead t.scan s.dot.val).toNat % 4 = 0 then 0
           else (scanRead t.scan s.dot.val).toNat)).toNat)) ∧
    (∀ x y, x < 256 → y < 240 → ¬(x = s.dot.val ∧ y = s.line.val) →
      fbRead t x y = fbRead s x y)

/-- 42_background.md R160 to R168: the background's cell of every column is that of R160's closed form, and
with BGE = 1 and SPE = 0 dot 0 of a visible line puts it in every column. TICK completes because every
processor step ends (log entry 10). -/
def Obligations.BackgroundLineFormula : Prop :=
  ∀ s : State,
    let cell := fun y x : Nat =>
      let ey := y + s.scrollY.toNat
      let h := s.scrollX.toNat + x
      let half := if 256 ≤ h then 1 else 0
      let hh := h - 256 * half
      let base := 0x2000 + 0x400 * ((s.ctrl.toNat % 4) ^^^ half)
      let pb := 0x1000 * (s.ctrl.getLsbD 4).toNat
      let tile := (memRead s (base + 32 * (ey / 8) + hh / 8)).toNat
      let lo := memRead s (pb + 16 * tile + ey % 8)
      let hi := memRead s (pb + 16 * tile + ey % 8 + 8)
      let attr := (memRead s (base + 0x3C0 + 8 * (ey / 32) + hh / 32)).toNat
      let sh := (if 16 ≤ hh % 32 then 2 else 0) + (if 16 ≤ ey % 32 then 4 else 0)
      (lo.getLsbD (7 - hh % 8)).toNat + 2 * (hi.getLsbD (7 - hh % 8)).toNat +
        4 * (attr / 2 ^ sh % 4)
    (∀ y x, x < 256 → (bgCell s y x).toNat = cell y x) ∧
    (s.Live → s.dot.val = 0 → s.line.val < 240 → maskBGE s.mask = true → maskSPE s.mask = false →
      ∃ t, exec .tick s = .next t ∧
        ∀ x, x < 256 → (scanRead t.scan x).toNat = cell s.line.val x)

/-- 42_background.md R171, 43_sprites.md R196, 45_timing.md R221: outside dot 0 of a visible line SCAN
stays; at it, with both pipelines off, SCAN stays but for the clear of frame start, and HITCOL stays.
Every processor step ends (log entry 10). -/
def Obligations.ScanKeptWithoutPipelines : Prop :=
  ∀ s : State, s.Live → ∃ t, exec .tick s = .next t ∧
    (s.dot.val ≠ 0 ∨ 240 ≤ s.line.val → t.scan = s.scan) ∧
    (s.dot.val = 0 → s.line.val < 240 → maskBGE s.mask = false → maskSPE s.mask = false →
      t.hitcol = s.hitcol ∧
      ∀ x, scanRead t.scan x = if s.line.val = 0 then 0#5 else scanRead s.scan x)

/-- 43_sprites.md R182 to R184: record k is the four OAM bytes (A + 4k + j) mod 256 in the order Y, TILE, ATTR,
X, for A the cursor; the evaluator selects at most 8 records, in scan order: record k of 64 exactly when
it is in range and fewer than 8 records before it are. -/
def Obligations.SpriteSelectionLimit : Prop :=
  (∀ (s : State) (k : Nat),
    (spriteRecord s k).k = k ∧
    (spriteRecord s k).y = oamRead s ((s.oamaddr.toNat + 4 * k) % 256) ∧
    (spriteRecord s k).tile = oamRead s ((s.oamaddr.toNat + 4 * k + 1) % 256) ∧
    (spriteRecord s k).attr = oamRead s ((s.oamaddr.toNat + 4 * k + 2) % 256) ∧
    (spriteRecord s k).x = oamRead s ((s.oamaddr.toNat + 4 * k + 3) % 256)) ∧
  (∀ (r : SpriteRec) (y : Nat), r.inRange y = true ↔ r.y.toNat ≤ y ∧ y < r.y.toNat + 8) ∧
  ∀ (s : State) (y : Nat),
    (spriteSelect s y).length ≤ 8 ∧
    (spriteSelect s y).Pairwise (fun r r' => r.k < r'.k) ∧
    ∀ r : SpriteRec, r ∈ spriteSelect s y ↔
      ∃ k, k < 64 ∧ r = spriteRecord s k ∧ r.y.toNat ≤ y ∧ y < r.y.toNat + 8 ∧
        ((List.range k).filter (fun j => (spriteRecord s j).inRange y)).length < 8

/-- 43_sprites.md R186 to R191: with SPE = 1, dot 0 of a visible line leaves in each column the cell
`SPAL | ATTR[1:0] << 2 | pix` of the winning selected sprite that has an opaque, unclipped pixel there (the
first in scan order under first_wins, the last under last_wins), and the background's cell where none
has; `pix` is read from the two planes at `0x1000 * SPT + 16 * TILE + row` and 8 further on, the row
flipped by ATTR[7] and the bit by ATTR[6]. TICK completes because every processor step ends (log entry
10). -/
def Obligations.SpriteOverlayWinner : Prop :=
  ∀ s : State, s.Live → s.dot.val = 0 → s.line.val < 240 → maskSPE s.mask = true →
    ∃ t, exec .tick s = .next t ∧ ∀ x, x < 256 →
      let pix := fun r : SpriteRec =>
        let row := if r.attr.getLsbD 7 then 7 - (s.line.val - r.y.toNat) else s.line.val - r.y.toNat
        let bit := if r.attr.getLsbD 6 then x - r.x.toNat else 7 - (x - r.x.toNat)
        let at0 := 0x1000 * (s.ctrl.getLsbD 3).toNat + 16 * r.tile.toNat + row
        ((memRead s at0).getLsbD bit).toNat + 2 * ((memRead s (at0 + 8)).getLsbD bit).toNat
      let spal := match s.params.palette with
        | .sprite => 16
        | .background => 0
      (scanRead t.scan x).toNat =
        match ((match s.params.priority with
            | .firstWins => spriteSelect s s.line.val
            | .lastWins => (spriteSelect s s.line.val).reverse).find? (fun r : SpriteRec =>
              decide (r.x.toNat ≤ x ∧ x < r.x.toNat + 8 ∧ pix r ≠ 0 ∧
                (8 ≤ x ∨ s.mask.getLsbD 2 = true)))) with
        | some r => spal + 4 * (r.attr.toNat % 4) + pix r
        | none =>
          if maskBGE s.mask = true then (bgCell s s.line.val x).toNat
          else if s.line.val = 0 then 0 else (scanRead s.scan x).toNat

/-- 43_sprites.md R182, R186 to R188, R192, R193: with SPE = 1, dot 0 of a visible line leaves in HITCOL the
leftmost column, 255 excepted, where the record at OAMADDR, the bytes A to A + 3 mod 256, is in range and
has an opaque, unclipped pixel, and None where there is no such column; no background pixel counts. TICK
completes because every processor step ends (log entry 10). -/
def Obligations.SpriteHitColumn : Prop :=
  ∀ s : State, s.Live → s.dot.val = 0 → s.line.val < 240 → maskSPE s.mask = true →
    ∃ t, exec .tick s = .next t ∧ ∀ h : Fin 255, t.hitcol = some h ↔
      (let y := (oamRead s (s.oamaddr.toNat % 256)).toNat
       let tile := (oamRead s ((s.oamaddr.toNat + 1) % 256)).toNat
       let attr := oamRead s ((s.oamaddr.toNat + 2) % 256)
       let x0 := (oamRead s ((s.oamaddr.toNat + 3) % 256)).toNat
       let row := if attr.getLsbD 7 then 7 - (s.line.val - y) else s.line.val - y
       let at0 := 0x1000 * (s.ctrl.getLsbD 3).toNat + 16 * tile + row
       let opaqueAt := fun c : Nat =>
         let bit := if attr.getLsbD 6 then c else 7 - c
         (memRead s at0).getLsbD bit = true ∨ (memRead s (at0 + 8)).getLsbD bit = true
       let hits := fun x : Nat =>
         y ≤ s.line.val ∧ s.line.val < y + 8 ∧ x0 ≤ x ∧ x < x0 + 8 ∧ opaqueAt (x - x0) ∧
           (8 ≤ x ∨ s.mask.getLsbD 2 = true)
       hits h.val ∧ ∀ x, x < h.val → ¬ hits x)

/-- 46_scheduler.md R242, 45_timing.md R221, R223, R225: the dot sets VBL and IPEND at (1, 241) and clears
them at (0, 0), resets OAMADDR at dots 256..340 of a visible line with SPE = 1, and changes no other
register but STATUS, no byte of OAM, palette or cartridge and no state of the scheduler or the
processor; in a unit with no DMA and an index that is no multiple of 3 the dot and CLK are the whole
effect. -/
def Obligations.GatedUnitFrame : Prop :=
  ∀ s : State, s.Live →
    ((dotStep s).oamaddr = (if 256 ≤ s.dot.val ∧ s.line.val < 240 ∧ maskSPE s.mask = true then 0#8
        else s.oamaddr) ∧
      statusVBL (dotStep s).status = (if s.dot.val = 0 ∧ s.line.val = 0 then false
        else if s.dot.val = 1 ∧ s.line.val = 241 then true else statusVBL s.status) ∧
      (dotStep s).ipend = (if s.dot.val = 0 ∧ s.line.val = 0 then false
        else if s.dot.val = 1 ∧ s.line.val = 241 then true else s.ipend) ∧
      (dotStep s).fault = none ∧
      (dotStep s).ctrl = s.ctrl ∧ (dotStep s).mask = s.mask ∧ (dotStep s).scrollX = s.scrollX ∧
      (dotStep s).scrollY = s.scrollY ∧ (dotStep s).vaddr = s.vaddr ∧ (dotStep s).vtog = s.vtog ∧
      (dotStep s).cart = s.cart ∧ (dotStep s).cpu = s.cpu ∧ (dotStep s).dma = s.dma ∧
      (dotStep s).clk = s.clk ∧ (dotStep s).nmiprev = s.nmiprev ∧ (dotStep s).draws = s.draws ∧
      (dotStep s).params = s.params ∧
      (∀ i, oamRead (dotStep s) i = oamRead s i) ∧ (∀ i, palRead (dotStep s) i = palRead s i)) ∧
    (s.dma = .inactive → s.clk % 3 ≠ 0 →
      exec .tick s = .next (((dotStep s).setClk (s.clk + 1)).setResp .none))

/-- 46_scheduler.md R242, R246, R247, R252: with no DMA, a unit whose index is a multiple of 3 performs the
processor's step after the dot, whatever the step is (it ends, log entry 10). A step that ends with busy =
true is no boundary: the processor has its new state, and NMIPREV and all else stay. A step that ends with
busy = false is one: NMI_OUT is sampled, the NMI is raised exactly on a rising edge against NMIPREV, and
NMIPREV takes the sample. A step of NOP-CPU is always a boundary and changes nothing else: no register
but STATUS as the dot leaves it and OAMADDR by the hblank reset, and no byte of OAM, palette or
cartridge. -/
def Obligations.NopCpuBoundary : Prop :=
  (∀ s : State, s.Live → s.dma = .inactive → s.clk % 3 = 0 →
    exec .tick s =
      .next (((performStep (cpuStep s.cpu) (dotStep s)).setClk (s.clk + 1)).setResp .none)) ∧
  (∀ (s : State) (c : CpuState), performStep (.done c true) s = s.setCpu c) ∧
  (∀ (s : State) (c : CpuState), performStep (.done c false) s =
    (s.setCpu (if (s.ctrl.getLsbD 7 && s.ipend) && !s.nmiprev then cpuRaiseNmi c else c)).setNmiprev
      (s.ctrl.getLsbD 7 && s.ipend)) ∧
  ∀ (s : State) (n m : Nat), s.Live → s.dma = .inactive → s.clk % 3 = 0 → s.cpu = .nop n m →
    ∃ t, exec .tick s = .next t ∧
      t.nmiprev = (s.ctrl.getLsbD 7 && t.ipend) ∧
      t.cpu = .nop (n + 1) (if (s.ctrl.getLsbD 7 && t.ipend) && !s.nmiprev then m + 1 else m) ∧
      t.oamaddr = (if 256 ≤ s.dot.val ∧ s.line.val < 240 ∧ maskSPE s.mask = true then 0#8
        else s.oamaddr) ∧
      t.status = (dotStep s).status ∧
      statusVBL t.status = (if s.dot.val = 0 ∧ s.line.val = 0 then false
        else if s.dot.val = 1 ∧ s.line.val = 241 then true else statusVBL s.status) ∧
      t.ctrl = s.ctrl ∧ t.mask = s.mask ∧ t.scrollX = s.scrollX ∧ t.scrollY = s.scrollY ∧
      t.vaddr = s.vaddr ∧ t.vtog = s.vtog ∧ t.cart = s.cart ∧ t.dma = .inactive ∧
      t.draws = s.draws ∧
      (∀ i, oamRead t i = oamRead s i) ∧ (∀ i, palRead t i = palRead s i)

/-- 46_scheduler.md R245: RUN_STEP performs a processor step's accesses one at a time, in the order issued:
a read goes through the dispatcher and its byte to what follows, a write through the dispatcher before
what follows. -/
def Obligations.StepAccessesInOrder : Prop :=
  (∀ (s : State) (a : Addr16) (k : Byte → CpuStep),
    performStep (.read a k) s = performStep (k (dispatchRead a s).1) (dispatchRead a s).2) ∧
  (∀ (s : State) (a : Addr16) (v : Byte) (rest : CpuStep),
    performStep (.write a v rest) s = performStep rest (dispatchWrite a v s))

/-- 46_scheduler.md R246 to R248: wherever it stands in a processor step, a write of v to the DMA trigger,
which lies off the window, sets DMA to Active(v, 0) at that point and changes nothing else, and the rest of
the step still runs. A stepped unit whose step begins with that write runs so after its dot; under
ONE-SHOT-CPU (92_eei_decisions.md D57) the unit ends with DMA active, and is a boundary. Every processor
step ends (log entry 10). -/
def Obligations.ProcessorTriggerStartsDma : Prop :=
  (∀ (s : State) (v : Byte) (rest : CpuStep), inWindow s.params s.params.dmaTrigger = false →
    performStep (.write s.params.dmaTrigger v rest) s = performStep rest (s.setDma (.active v 0))) ∧
  (∀ (s : State) (v : Byte) (rest : CpuStep), s.Live → s.dma = .inactive → s.clk % 3 = 0 →
    inWindow s.params s.params.dmaTrigger = false →
    cpuStep s.cpu = .write s.params.dmaTrigger v rest →
    exec .tick s =
      .next (((performStep rest ((dotStep s).setDma (.active v 0))).setClk (s.clk + 1)).setResp .none)) ∧
  ∀ (s : State) (v : Byte) (m : Nat), s.Live → s.dma = .inactive → s.clk % 3 = 0 →
    inWindow s.params s.params.dmaTrigger = false →
    s.cpu = .oneShot s.params.dmaTrigger v 0 m →
    ∃ t, exec .tick s = .next t ∧ t.dma = .active v 0 ∧
      t.nmiprev = (s.ctrl.getLsbD 7 && t.ipend)

/-- 60_exceptions.md R265, 41_registers.md R121: wherever it stands in a processor step, a write of v to
CTRL makes CTRL = v at that point and the rest of the step runs on from there; where it is the last access of
a step that ends with busy = false, whatever came before it, the step's NMI sample sees v. A stepped unit
whose step begins with that write runs so after its dot; under ONE-SHOT-CPU (92_eei_decisions.md D57) its
counters say so too. Every processor step ends (log entry 10). -/
def Obligations.CtrlWriteSeenBySample : Prop :=
  (∀ (s : State) (a : Addr16) (v : Byte), inWindow s.params a = true → a.toNat % 8 = 0 →
    (∀ rest : CpuStep, performStep (.write a v rest) s = performStep rest (s.setCtrl v)) ∧
    (∀ c : CpuState, performStep (.write a v (.done c false)) s =
      ((s.setCtrl v).setCpu
        (if (v.getLsbD 7 && s.ipend) && !s.nmiprev then cpuRaiseNmi c else c)).setNmiprev
          (v.getLsbD 7 && s.ipend))) ∧
  (∀ (s : State) (a : Addr16) (v : Byte) (rest : CpuStep), s.Live → s.dma = .inactive →
    s.clk % 3 = 0 → inWindow s.params a = true → a.toNat % 8 = 0 → cpuStep s.cpu = .write a v rest →
    ∃ t, exec .tick s = .next t ∧
      t = ((performStep rest ((dotStep s).setCtrl v)).setClk (s.clk + 1)).setResp .none ∧
      (∀ c : CpuState, rest = .done c false →
        t.ctrl = v ∧ t.nmiprev = (v.getLsbD 7 && t.ipend) ∧
        t.cpu = (if (v.getLsbD 7 && t.ipend) && !s.nmiprev then cpuRaiseNmi c else c))) ∧
  ∀ (s : State) (a : Addr16) (v : Byte) (m : Nat), s.Live → s.dma = .inactive → s.clk % 3 = 0 →
    inWindow s.params a = true → a.toNat % 8 = 0 → s.cpu = .oneShot a v 0 m →
    ∃ t, exec .tick s = .next t ∧ t.ctrl = v ∧ t.nmiprev = (v.getLsbD 7 && t.ipend) ∧
      t.cpu = .oneShot a v 1 (if (v.getLsbD 7 && t.ipend) && !s.nmiprev then m + 1 else m)

/-- 46_scheduler.md R249, R250, R251: a DMA unit performs the source read after the dot, with whatever byte and
effect the dispatcher gives it, writes the byte into OAM at the cursor, advances the cursor, counts, ends
after byte 255, and neither steps the processor nor samples the NMI; nothing else changes. With BUS-PAT
outside the block the byte is `count ^ page`, and every other byte of OAM, the palette and the cartridge
stays. -/
def Obligations.DmaUnitMovesOneByte : Prop :=
  (∀ (s : State) (page : Byte) (count : Fin 256), s.Live → s.dma = .active page count →
    let b := (dispatchRead (dmaSource page count) (dotStep s)).1
    let u := (dispatchRead (dmaSource page count) (dotStep s)).2
    (dmaSource page count).toNat = page.toNat * 256 + count.val ∧
    ∃ t, exec .tick s = .next t ∧
      t = ((((u.setOam t.oam).setOamaddr (u.oamaddr + 1)).setDma t.dma).setClk (s.clk + 1)).setResp
        .none ∧
      (∀ i, i < 256 → oamRead t i = if i = u.oamaddr.toNat then b else oamRead u i) ∧
      (count.val = 255 → t.dma = .inactive) ∧
      (∀ lt : count.val < 255, t.dma = .active page ⟨count.val + 1, by omega⟩) ∧
      t.cpu = s.cpu ∧ t.nmiprev = s.nmiprev) ∧
  ∀ (s : State) (page : Byte) (count : Fin 256), s.Live → s.dma = .active page count →
    s.params.bus = .pattern → inWindow s.params (dmaSource page count) = false →
    dmaSource page count ≠ s.params.dmaTrigger →
    ∃ t, exec .tick s = .next t ∧
      (let at0 := if 256 ≤ s.dot.val ∧ s.line.val < 240 ∧ maskSPE s.mask = true then 0#8
          else s.oamaddr
       t.oamaddr = at0 + 1 ∧
       ∀ i, i < 256 → oamRead t i =
        if i = at0.toNat then BitVec.ofNat 8 count.val ^^^ page else oamRead s i) ∧
      (count.val = 255 → t.dma = .inactive) ∧
      (∀ lt : count.val < 255, t.dma = .active page ⟨count.val + 1, by omega⟩) ∧
      t.cpu = s.cpu ∧ t.nmiprev = s.nmiprev ∧ t.ctrl = s.ctrl ∧ t.mask = s.mask ∧
      t.scrollX = s.scrollX ∧ t.scrollY = s.scrollY ∧ t.vaddr = s.vaddr ∧ t.vtog = s.vtog ∧
      t.cart = s.cart ∧ (∀ i, palRead t i = palRead s i)

/-- 20_memory.md R85, 46_scheduler.md R254: a DMA source address that the dispatcher routes to the window is
read as the register of its low three bits, side effect included: STATUS gives STATUS as the dot leaves it
and clears VBL, OAMDATA gives the byte about to be overwritten, DATA gives MemRead(VADDR) and advances
VADDR, and the write-only registers give a free byte (log entry 3). -/
def Obligations.DmaReadsDataRegister : Prop :=
  ∀ (s : State) (page : Byte) (count : Fin 256), s.Live → s.dma = .active page count →
    inWindow s.params (dmaSource page count) = true →
    ∃ t, exec .tick s = .next t ∧
      (let at0 := if 256 ≤ s.dot.val ∧ s.line.val < 240 ∧ maskSPE s.mask = true then 0
          else s.oamaddr.toNat
       (count.val % 8 = 2 → oamRead t at0 = (dotStep s).status ∧
          t.status = (dotStep s).status &&& 0x7F#8) ∧
       (count.val % 8 = 4 → oamRead t at0 = oamRead s at0) ∧
       (count.val % 8 = 7 → oamRead t at0 = memRead s s.vaddr.toNat ∧
          t.vaddr = s.vaddr + (if ctrlINC s.ctrl then 32#14 else 1#14)) ∧
       (count.val % 8 ≠ 2 → count.val % 8 ≠ 4 → count.val % 8 ≠ 7 →
          oamRead t at0 = Config.draw8 s.draws ∧ t.draws = s.draws + 1) ∧
       (count.val % 8 ≠ 2 → t.status = (dotStep s).status) ∧
       (count.val % 8 ≠ 7 → t.vaddr = s.vaddr) ∧
       (∀ i, i < 256 → i ≠ at0 → oamRead t i = oamRead s i)) ∧
      t.ctrl = s.ctrl ∧ t.mask = s.mask ∧ t.scrollX = s.scrollX ∧ t.scrollY = s.scrollY ∧
      t.vtog = s.vtog ∧ t.cart = s.cart ∧ (∀ i, palRead t i = palRead s i)

/-- 46_scheduler.md R250, R251, 70_reset_and_hazards.md R286: a whole transfer, with SPE = 0 and a source
page outside the block (here BUS-PAT), takes exactly 256 units, copies the page in order from the cursor
on, wrapping at 256, leaves the cursor where it started and DMA inactive, and never steps the
processor or samples the NMI. -/
def Obligations.DmaCopiesPageInOrder : Prop :=
  ∀ (s : State) (page : Byte), s.Live → s.dma = .active page 0 → maskSPE s.mask = false →
    s.params.bus = .pattern →
    (∀ c : Fin 256, inWindow s.params (dmaSource page c) = false ∧
      dmaSource page c ≠ s.params.dmaTrigger) →
    ∃ t, ticks 256 s = .next t ∧ t.dma = .inactive ∧ t.oamaddr = s.oamaddr ∧
      t.clk = s.clk + 256 ∧ t.cpu = s.cpu ∧ t.nmiprev = s.nmiprev ∧
      ∀ i, i < 256 → oamRead t (s.oamaddr.toNat + i) = BitVec.ofNat 8 i ^^^ page

/-! ### Invariants and whole-machine rules -/

/-- The state at power-on meets every invariant below. -/
def Obligations.ResetMeetsInvariants : Prop :=
  State.reset.StoresWf ∧ State.reset.OnGrid ∧ State.reset.IpendWindow ∧
  State.reset.FbProgress ∧ State.reset.StatusLowZero ∧ State.reset.VblankPending ∧
  State.reset.Live

/-- 10_state.md R44 to R47: every step keeps every store in its canonical form and bounds, and lists no
unreachable palette cell. -/
def Obligations.StepKeepsStores : Prop :=
  ∀ s t : State, s.StoresWf → step s = .next t → t.StoresWf

/-- 46_scheduler.md R255: every step keeps CLK = TOTDOTS and the cursor at dot
(k mod 341, (k div 341) mod 262) for the next unit k. -/
def Obligations.StepKeepsGrid : Prop :=
  ∀ s t : State, s.OnGrid → step s = .next t → t.OnGrid

/-- 45_timing.md R228: IPEND is 1 exactly in the 7160 samplings from the unit 82182 of a frame to its last
unit, whatever programs do. -/
def Obligations.StepKeepsIpendWindow : Prop :=
  ∀ s t : State, s.OnGrid → s.IpendWindow → step s = .next t → t.IpendWindow

/-- 70_reset_and_hazards.md R282: the framebuffer cell (x, y) is first written in unit 341 y + x. -/
def Obligations.StepKeepsFbProgress : Prop :=
  ∀ s t : State, s.OnGrid → s.FbProgress → step s = .next t → t.FbProgress

/-- 10_state.md R39: STATUS[5:0] are 0 at power-on and after every step that started with them 0. -/
def Obligations.StatusLowBitsStayZero : Prop :=
  State.reset.StatusLowZero ∧
  ∀ s t : State, s.StatusLowZero → step s = .next t → t.StatusLowZero

/-- 45_timing.md R221, R223: VBL is never 1 while IPEND is 0. -/
def Obligations.StepKeepsVblankPending : Prop :=
  ∀ s t : State, s.VblankPending → step s = .next t → t.VblankPending

/-- 60_exceptions.md R261, 44_compositor.md R214: no step faults or leaves the machine faulted. -/
def Obligations.NoStepFaults : Prop :=
  ∀ s : State, s.Live → s.SafeStep

/-- 00_scope.md R9 to R13: no step changes a parameter (that `State` carries them is the model's choice,
log entry 6). -/
def Obligations.ParametersNeverChange : Prop :=
  ∀ s t : State, step s = .next t → t.params = s.params

/-- 10_state.md R26, R27, R30, R31, R35, R42: CTRL[6:5], MASK GREY, BGL and EMPH and VTOG have no effect:
two runs that differ only in them differ only in them after any transaction, and answer the same. Where the
answer is a free byte this holds because the two runs have drawn equally often and so draw the same byte
(log entry 3, which is unsafe for a claim that compares two runs). -/
def Obligations.UnreadBitsHaveNoEffect : Prop :=
  ∀ (i : Instr) (s s' : State), SameButUnread s s' →
    ∃ t t', exec i s = .next t ∧ exec i s' = .next t' ∧ SameButUnread t t'
end

