-- ==== Sys2Proof/Laws/Decode.lean ====
section
/-! SUPPORT. The decoder's refusals against the four checks, and the fields of a word put back together. -/

namespace Sys2Proof

/-- A word is refused exactly when one of the four checks of R102 fails. -/
theorem reservedWhy_eq_none (f : TFields) : reservedWhy f = none ↔ f.wellFormed = true := by
  unfold reservedWhy TFields.wellFormed
  cases f.resOk <;> cases f.writeOk <;> cases f.idxOk <;> cases f.dataOk <;> simp

/-- What the decoder answers on a word whose fields pass the checks. -/
theorem decode_accepted {x : TWord} (h : (fieldsOfWord x).wellFormed = true) :
    decode x = .ok (acceptedInstr (fieldsOfWord x)) := by
  unfold decode
  rw [(reservedWhy_eq_none _).2 h]

/-- What the decoder answers on a word whose fields fail a check. -/
theorem decode_reserved {x : TWord} (h : (fieldsOfWord x).wellFormed = false) :
    ∃ why, decode x = .error why := by
  unfold decode
  cases hw : reservedWhy (fieldsOfWord x) with
  | none => rw [(reservedWhy_eq_none _).1 hw] at h; exact absurd h (by decide)
  | some why => exact ⟨why, rfl⟩

theorem regOfIdx_idxOfReg (r : Reg) : regOfIdx (idxOfReg r) = r := by cases r <;> rfl

theorem idxOfReg_regOfIdx (i : BitVec 3) : idxOfReg (regOfIdx i) = i := by
  revert i; decide

theorem portOfBits_bitsOfPort (p : Port) : portOfBits (bitsOfPort p) = p := by cases p <;> rfl

theorem bitsOfPort_portOfBits (b : BitVec 2) : bitsOfPort (portOfBits b) = b := by
  revert b; decide

/-- A word bit by bit: DATA, IDX, RES, W, PORT from the low end (R100). -/
theorem wordOfFields_bit (f : TFields) (j : Nat) :
    (wordOfFields f).getLsbD j =
      if j < 8 then f.data.getLsbD j
      else if j < 11 then f.idx.getLsbD (j - 8)
      else if j < 13 then f.res.getLsbD (j - 11)
      else if j < 14 then f.w
      else (bitsOfPort f.port).getLsbD (j - 14) := by
  unfold wordOfFields
  rw [BitVec.getLsbD_append, BitVec.getLsbD_append, BitVec.getLsbD_append, BitVec.getLsbD_append]
  by_cases h8 : j < 8
  · rw [if_pos h8, if_pos h8]
  rw [if_neg h8, if_neg h8]
  by_cases h11 : j < 11
  · rw [if_pos (show j - 8 < 3 by omega), if_pos h11]
  rw [if_neg (show ¬ j - 8 < 3 by omega), if_neg h11]
  by_cases h13 : j < 13
  · rw [if_pos (show j - 8 - 3 < 2 by omega), if_pos h13, show j - 8 - 3 = j - 11 by omega]
  rw [if_neg (show ¬ j - 8 - 3 < 2 by omega), if_neg h13]
  by_cases h14 : j < 14
  · obtain rfl : j = 13 := by omega
    cases f.w <;> rfl
  · rw [if_neg (show ¬ j - 8 - 3 - 2 < 1 by omega), if_neg h14,
      show j - 8 - 3 - 2 - 1 = j - 14 by omega]

/-- The fields of a word put together are the fields it was made from. -/
theorem fieldsOfWord_wordOfFields (f : TFields) : fieldsOfWord (wordOfFields f) = f := by
  have hp : (wordOfFields f).extractLsb' 14 2 = bitsOfPort f.port := by
    apply BitVec.eq_of_getLsbD_eq
    intro j hj
    rw [BitVec.getLsbD_extractLsb', wordOfFields_bit, if_neg (by omega), if_neg (by omega),
      if_neg (by omega), if_neg (by omega), Nat.add_sub_cancel_left]
    simp [hj]
  have hr : (wordOfFields f).extractLsb' 11 2 = f.res := by
    apply BitVec.eq_of_getLsbD_eq
    intro j hj
    rw [BitVec.getLsbD_extractLsb', wordOfFields_bit, if_neg (by omega), if_neg (by omega),
      if_pos (by omega), Nat.add_sub_cancel_left]
    simp [hj]
  have hi : (wordOfFields f).extractLsb' 8 3 = f.idx := by
    apply BitVec.eq_of_getLsbD_eq
    intro j hj
    rw [BitVec.getLsbD_extractLsb', wordOfFields_bit, if_neg (by omega), if_pos (by omega),
      Nat.add_sub_cancel_left]
    simp [hj]
  have hd : (wordOfFields f).extractLsb' 0 8 = f.data := by
    apply BitVec.eq_of_getLsbD_eq
    intro j hj
    rw [BitVec.getLsbD_extractLsb', wordOfFields_bit, if_pos (by omega), Nat.zero_add]
    simp [hj]
  have hw : (wordOfFields f).getLsbD 13 = f.w := by rw [wordOfFields_bit]; rfl
  unfold fieldsOfWord
  rw [hp, hr, hi, hd, hw, portOfBits_bitsOfPort]

/-- A word is put together from its own fields. -/
theorem wordOfFields_fieldsOfWord (x : TWord) : wordOfFields (fieldsOfWord x) = x := by
  apply BitVec.eq_of_getLsbD_eq
  intro j hj
  rw [wordOfFields_bit]
  simp only [fieldsOfWord, bitsOfPort_portOfBits, BitVec.getLsbD_extractLsb']
  by_cases h8 : j < 8
  · simp [h8]
  rw [if_neg h8]
  by_cases h11 : j < 11
  · rw [if_pos h11, show 8 + (j - 8) = j by omega]; simp; omega
  rw [if_neg h11]
  by_cases h13 : j < 13
  · rw [if_pos h13, show 11 + (j - 11) = j by omega]; simp; omega
  rw [if_neg h13]
  by_cases h14 : j < 14
  · rw [if_pos h14, show j = 13 by omega]
  · rw [if_neg h14, show 14 + (j - 14) = j by omega]; simp; omega

end Sys2Proof
end

