-- ==== Sys2Proof/Laws/State.lean ====
section
/-! SUPPORT. What each named update of the state leaves in each field, once for all. -/

namespace Sys2Proof.Machine

@[simp] theorem State.setCtrl_ctrl (s : State) (v : Byte) : (s.setCtrl v).ctrl = v := rfl
@[simp] theorem State.setCtrl_mask (s : State) (v : Byte) : (s.setCtrl v).mask = s.mask := rfl
@[simp] theorem State.setCtrl_status (s : State) (v : Byte) : (s.setCtrl v).status = s.status := rfl
@[simp] theorem State.setCtrl_scrollX (s : State) (v : Byte) : (s.setCtrl v).scrollX = s.scrollX := rfl
@[simp] theorem State.setCtrl_scrollY (s : State) (v : Byte) : (s.setCtrl v).scrollY = s.scrollY := rfl
@[simp] theorem State.setCtrl_vaddr (s : State) (v : Byte) : (s.setCtrl v).vaddr = s.vaddr := rfl
@[simp] theorem State.setCtrl_vtog (s : State) (v : Byte) : (s.setCtrl v).vtog = s.vtog := rfl
@[simp] theorem State.setCtrl_oamaddr (s : State) (v : Byte) : (s.setCtrl v).oamaddr = s.oamaddr := rfl
@[simp] theorem State.setCtrl_oam (s : State) (v : Byte) : (s.setCtrl v).oam = s.oam := rfl
@[simp] theorem State.setCtrl_pal (s : State) (v : Byte) : (s.setCtrl v).pal = s.pal := rfl
@[simp] theorem State.setCtrl_scan (s : State) (v : Byte) : (s.setCtrl v).scan = s.scan := rfl
@[simp] theorem State.setCtrl_fb (s : State) (v : Byte) : (s.setCtrl v).fb = s.fb := rfl
@[simp] theorem State.setCtrl_dot (s : State) (v : Byte) : (s.setCtrl v).dot = s.dot := rfl
@[simp] theorem State.setCtrl_line (s : State) (v : Byte) : (s.setCtrl v).line = s.line := rfl
@[simp] theorem State.setCtrl_ipend (s : State) (v : Byte) : (s.setCtrl v).ipend = s.ipend := rfl
@[simp] theorem State.setCtrl_hitcol (s : State) (v : Byte) : (s.setCtrl v).hitcol = s.hitcol := rfl
@[simp] theorem State.setCtrl_clk (s : State) (v : Byte) : (s.setCtrl v).clk = s.clk := rfl
@[simp] theorem State.setCtrl_dma (s : State) (v : Byte) : (s.setCtrl v).dma = s.dma := rfl
@[simp] theorem State.setCtrl_nmiprev (s : State) (v : Byte) : (s.setCtrl v).nmiprev = s.nmiprev := rfl
@[simp] theorem State.setCtrl_totdots (s : State) (v : Byte) : (s.setCtrl v).totdots = s.totdots := rfl
@[simp] theorem State.setCtrl_lastrep (s : State) (v : Byte) : (s.setCtrl v).lastrep = s.lastrep := rfl
@[simp] theorem State.setCtrl_fault (s : State) (v : Byte) : (s.setCtrl v).fault = s.fault := rfl
@[simp] theorem State.setCtrl_cpu (s : State) (v : Byte) : (s.setCtrl v).cpu = s.cpu := rfl
@[simp] theorem State.setCtrl_cart (s : State) (v : Byte) : (s.setCtrl v).cart = s.cart := rfl
@[simp] theorem State.setCtrl_params (s : State) (v : Byte) : (s.setCtrl v).params = s.params := rfl
@[simp] theorem State.setCtrl_script (s : State) (v : Byte) : (s.setCtrl v).script = s.script := rfl
@[simp] theorem State.setCtrl_resp (s : State) (v : Byte) : (s.setCtrl v).resp = s.resp := rfl
@[simp] theorem State.setCtrl_draws (s : State) (v : Byte) : (s.setCtrl v).draws = s.draws := rfl

@[simp] theorem State.setMask_ctrl (s : State) (v : Byte) : (s.setMask v).ctrl = s.ctrl := rfl
@[simp] theorem State.setMask_mask (s : State) (v : Byte) : (s.setMask v).mask = v := rfl
@[simp] theorem State.setMask_status (s : State) (v : Byte) : (s.setMask v).status = s.status := rfl
@[simp] theorem State.setMask_scrollX (s : State) (v : Byte) : (s.setMask v).scrollX = s.scrollX := rfl
@[simp] theorem State.setMask_scrollY (s : State) (v : Byte) : (s.setMask v).scrollY = s.scrollY := rfl
@[simp] theorem State.setMask_vaddr (s : State) (v : Byte) : (s.setMask v).vaddr = s.vaddr := rfl
@[simp] theorem State.setMask_vtog (s : State) (v : Byte) : (s.setMask v).vtog = s.vtog := rfl
@[simp] theorem State.setMask_oamaddr (s : State) (v : Byte) : (s.setMask v).oamaddr = s.oamaddr := rfl
@[simp] theorem State.setMask_oam (s : State) (v : Byte) : (s.setMask v).oam = s.oam := rfl
@[simp] theorem State.setMask_pal (s : State) (v : Byte) : (s.setMask v).pal = s.pal := rfl
@[simp] theorem State.setMask_scan (s : State) (v : Byte) : (s.setMask v).scan = s.scan := rfl
@[simp] theorem State.setMask_fb (s : State) (v : Byte) : (s.setMask v).fb = s.fb := rfl
@[simp] theorem State.setMask_dot (s : State) (v : Byte) : (s.setMask v).dot = s.dot := rfl
@[simp] theorem State.setMask_line (s : State) (v : Byte) : (s.setMask v).line = s.line := rfl
@[simp] theorem State.setMask_ipend (s : State) (v : Byte) : (s.setMask v).ipend = s.ipend := rfl
@[simp] theorem State.setMask_hitcol (s : State) (v : Byte) : (s.setMask v).hitcol = s.hitcol := rfl
@[simp] theorem State.setMask_clk (s : State) (v : Byte) : (s.setMask v).clk = s.clk := rfl
@[simp] theorem State.setMask_dma (s : State) (v : Byte) : (s.setMask v).dma = s.dma := rfl
@[simp] theorem State.setMask_nmiprev (s : State) (v : Byte) : (s.setMask v).nmiprev = s.nmiprev := rfl
@[simp] theorem State.setMask_totdots (s : State) (v : Byte) : (s.setMask v).totdots = s.totdots := rfl
@[simp] theorem State.setMask_lastrep (s : State) (v : Byte) : (s.setMask v).lastrep = s.lastrep := rfl
@[simp] theorem State.setMask_fault (s : State) (v : Byte) : (s.setMask v).fault = s.fault := rfl
@[simp] theorem State.setMask_cpu (s : State) (v : Byte) : (s.setMask v).cpu = s.cpu := rfl
@[simp] theorem State.setMask_cart (s : State) (v : Byte) : (s.setMask v).cart = s.cart := rfl
@[simp] theorem State.setMask_params (s : State) (v : Byte) : (s.setMask v).params = s.params := rfl
@[simp] theorem State.setMask_script (s : State) (v : Byte) : (s.setMask v).script = s.script := rfl
@[simp] theorem State.setMask_resp (s : State) (v : Byte) : (s.setMask v).resp = s.resp := rfl
@[simp] theorem State.setMask_draws (s : State) (v : Byte) : (s.setMask v).draws = s.draws := rfl

@[simp] theorem State.setStatus_ctrl (s : State) (v : Byte) : (s.setStatus v).ctrl = s.ctrl := rfl
@[simp] theorem State.setStatus_mask (s : State) (v : Byte) : (s.setStatus v).mask = s.mask := rfl
@[simp] theorem State.setStatus_status (s : State) (v : Byte) : (s.setStatus v).status = v := rfl
@[simp] theorem State.setStatus_scrollX (s : State) (v : Byte) : (s.setStatus v).scrollX = s.scrollX := rfl
@[simp] theorem State.setStatus_scrollY (s : State) (v : Byte) : (s.setStatus v).scrollY = s.scrollY := rfl
@[simp] theorem State.setStatus_vaddr (s : State) (v : Byte) : (s.setStatus v).vaddr = s.vaddr := rfl
@[simp] theorem State.setStatus_vtog (s : State) (v : Byte) : (s.setStatus v).vtog = s.vtog := rfl
@[simp] theorem State.setStatus_oamaddr (s : State) (v : Byte) : (s.setStatus v).oamaddr = s.oamaddr := rfl
@[simp] theorem State.setStatus_oam (s : State) (v : Byte) : (s.setStatus v).oam = s.oam := rfl
@[simp] theorem State.setStatus_pal (s : State) (v : Byte) : (s.setStatus v).pal = s.pal := rfl
@[simp] theorem State.setStatus_scan (s : State) (v : Byte) : (s.setStatus v).scan = s.scan := rfl
@[simp] theorem State.setStatus_fb (s : State) (v : Byte) : (s.setStatus v).fb = s.fb := rfl
@[simp] theorem State.setStatus_dot (s : State) (v : Byte) : (s.setStatus v).dot = s.dot := rfl
@[simp] theorem State.setStatus_line (s : State) (v : Byte) : (s.setStatus v).line = s.line := rfl
@[simp] theorem State.setStatus_ipend (s : State) (v : Byte) : (s.setStatus v).ipend = s.ipend := rfl
@[simp] theorem State.setStatus_hitcol (s : State) (v : Byte) : (s.setStatus v).hitcol = s.hitcol := rfl
@[simp] theorem State.setStatus_clk (s : State) (v : Byte) : (s.setStatus v).clk = s.clk := rfl
@[simp] theorem State.setStatus_dma (s : State) (v : Byte) : (s.setStatus v).dma = s.dma := rfl
@[simp] theorem State.setStatus_nmiprev (s : State) (v : Byte) : (s.setStatus v).nmiprev = s.nmiprev := rfl
@[simp] theorem State.setStatus_totdots (s : State) (v : Byte) : (s.setStatus v).totdots = s.totdots := rfl
@[simp] theorem State.setStatus_lastrep (s : State) (v : Byte) : (s.setStatus v).lastrep = s.lastrep := rfl
@[simp] theorem State.setStatus_fault (s : State) (v : Byte) : (s.setStatus v).fault = s.fault := rfl
@[simp] theorem State.setStatus_cpu (s : State) (v : Byte) : (s.setStatus v).cpu = s.cpu := rfl
@[simp] theorem State.setStatus_cart (s : State) (v : Byte) : (s.setStatus v).cart = s.cart := rfl
@[simp] theorem State.setStatus_params (s : State) (v : Byte) : (s.setStatus v).params = s.params := rfl
@[simp] theorem State.setStatus_script (s : State) (v : Byte) : (s.setStatus v).script = s.script := rfl
@[simp] theorem State.setStatus_resp (s : State) (v : Byte) : (s.setStatus v).resp = s.resp := rfl
@[simp] theorem State.setStatus_draws (s : State) (v : Byte) : (s.setStatus v).draws = s.draws := rfl

@[simp] theorem State.setScrollX_ctrl (s : State) (v : Byte) : (s.setScrollX v).ctrl = s.ctrl := rfl
@[simp] theorem State.setScrollX_mask (s : State) (v : Byte) : (s.setScrollX v).mask = s.mask := rfl
@[simp] theorem State.setScrollX_status (s : State) (v : Byte) : (s.setScrollX v).status = s.status := rfl
@[simp] theorem State.setScrollX_scrollX (s : State) (v : Byte) : (s.setScrollX v).scrollX = v := rfl
@[simp] theorem State.setScrollX_scrollY (s : State) (v : Byte) : (s.setScrollX v).scrollY = s.scrollY := rfl
@[simp] theorem State.setScrollX_vaddr (s : State) (v : Byte) : (s.setScrollX v).vaddr = s.vaddr := rfl
@[simp] theorem State.setScrollX_vtog (s : State) (v : Byte) : (s.setScrollX v).vtog = s.vtog := rfl
@[simp] theorem State.setScrollX_oamaddr (s : State) (v : Byte) : (s.setScrollX v).oamaddr = s.oamaddr := rfl
@[simp] theorem State.setScrollX_oam (s : State) (v : Byte) : (s.setScrollX v).oam = s.oam := rfl
@[simp] theorem State.setScrollX_pal (s : State) (v : Byte) : (s.setScrollX v).pal = s.pal := rfl
@[simp] theorem State.setScrollX_scan (s : State) (v : Byte) : (s.setScrollX v).scan = s.scan := rfl
@[simp] theorem State.setScrollX_fb (s : State) (v : Byte) : (s.setScrollX v).fb = s.fb := rfl
@[simp] theorem State.setScrollX_dot (s : State) (v : Byte) : (s.setScrollX v).dot = s.dot := rfl
@[simp] theorem State.setScrollX_line (s : State) (v : Byte) : (s.setScrollX v).line = s.line := rfl
@[simp] theorem State.setScrollX_ipend (s : State) (v : Byte) : (s.setScrollX v).ipend = s.ipend := rfl
@[simp] theorem State.setScrollX_hitcol (s : State) (v : Byte) : (s.setScrollX v).hitcol = s.hitcol := rfl
@[simp] theorem State.setScrollX_clk (s : State) (v : Byte) : (s.setScrollX v).clk = s.clk := rfl
@[simp] theorem State.setScrollX_dma (s : State) (v : Byte) : (s.setScrollX v).dma = s.dma := rfl
@[simp] theorem State.setScrollX_nmiprev (s : State) (v : Byte) : (s.setScrollX v).nmiprev = s.nmiprev := rfl
@[simp] theorem State.setScrollX_totdots (s : State) (v : Byte) : (s.setScrollX v).totdots = s.totdots := rfl
@[simp] theorem State.setScrollX_lastrep (s : State) (v : Byte) : (s.setScrollX v).lastrep = s.lastrep := rfl
@[simp] theorem State.setScrollX_fault (s : State) (v : Byte) : (s.setScrollX v).fault = s.fault := rfl
@[simp] theorem State.setScrollX_cpu (s : State) (v : Byte) : (s.setScrollX v).cpu = s.cpu := rfl
@[simp] theorem State.setScrollX_cart (s : State) (v : Byte) : (s.setScrollX v).cart = s.cart := rfl
@[simp] theorem State.setScrollX_params (s : State) (v : Byte) : (s.setScrollX v).params = s.params := rfl
@[simp] theorem State.setScrollX_script (s : State) (v : Byte) : (s.setScrollX v).script = s.script := rfl
@[simp] theorem State.setScrollX_resp (s : State) (v : Byte) : (s.setScrollX v).resp = s.resp := rfl
@[simp] theorem State.setScrollX_draws (s : State) (v : Byte) : (s.setScrollX v).draws = s.draws := rfl

@[simp] theorem State.setScrollY_ctrl (s : State) (v : Byte) : (s.setScrollY v).ctrl = s.ctrl := rfl
@[simp] theorem State.setScrollY_mask (s : State) (v : Byte) : (s.setScrollY v).mask = s.mask := rfl
@[simp] theorem State.setScrollY_status (s : State) (v : Byte) : (s.setScrollY v).status = s.status := rfl
@[simp] theorem State.setScrollY_scrollX (s : State) (v : Byte) : (s.setScrollY v).scrollX = s.scrollX := rfl
@[simp] theorem State.setScrollY_scrollY (s : State) (v : Byte) : (s.setScrollY v).scrollY = v := rfl
@[simp] theorem State.setScrollY_vaddr (s : State) (v : Byte) : (s.setScrollY v).vaddr = s.vaddr := rfl
@[simp] theorem State.setScrollY_vtog (s : State) (v : Byte) : (s.setScrollY v).vtog = s.vtog := rfl
@[simp] theorem State.setScrollY_oamaddr (s : State) (v : Byte) : (s.setScrollY v).oamaddr = s.oamaddr := rfl
@[simp] theorem State.setScrollY_oam (s : State) (v : Byte) : (s.setScrollY v).oam = s.oam := rfl
@[simp] theorem State.setScrollY_pal (s : State) (v : Byte) : (s.setScrollY v).pal = s.pal := rfl
@[simp] theorem State.setScrollY_scan (s : State) (v : Byte) : (s.setScrollY v).scan = s.scan := rfl
@[simp] theorem State.setScrollY_fb (s : State) (v : Byte) : (s.setScrollY v).fb = s.fb := rfl
@[simp] theorem State.setScrollY_dot (s : State) (v : Byte) : (s.setScrollY v).dot = s.dot := rfl
@[simp] theorem State.setScrollY_line (s : State) (v : Byte) : (s.setScrollY v).line = s.line := rfl
@[simp] theorem State.setScrollY_ipend (s : State) (v : Byte) : (s.setScrollY v).ipend = s.ipend := rfl
@[simp] theorem State.setScrollY_hitcol (s : State) (v : Byte) : (s.setScrollY v).hitcol = s.hitcol := rfl
@[simp] theorem State.setScrollY_clk (s : State) (v : Byte) : (s.setScrollY v).clk = s.clk := rfl
@[simp] theorem State.setScrollY_dma (s : State) (v : Byte) : (s.setScrollY v).dma = s.dma := rfl
@[simp] theorem State.setScrollY_nmiprev (s : State) (v : Byte) : (s.setScrollY v).nmiprev = s.nmiprev := rfl
@[simp] theorem State.setScrollY_totdots (s : State) (v : Byte) : (s.setScrollY v).totdots = s.totdots := rfl
@[simp] theorem State.setScrollY_lastrep (s : State) (v : Byte) : (s.setScrollY v).lastrep = s.lastrep := rfl
@[simp] theorem State.setScrollY_fault (s : State) (v : Byte) : (s.setScrollY v).fault = s.fault := rfl
@[simp] theorem State.setScrollY_cpu (s : State) (v : Byte) : (s.setScrollY v).cpu = s.cpu := rfl
@[simp] theorem State.setScrollY_cart (s : State) (v : Byte) : (s.setScrollY v).cart = s.cart := rfl
@[simp] theorem State.setScrollY_params (s : State) (v : Byte) : (s.setScrollY v).params = s.params := rfl
@[simp] theorem State.setScrollY_script (s : State) (v : Byte) : (s.setScrollY v).script = s.script := rfl
@[simp] theorem State.setScrollY_resp (s : State) (v : Byte) : (s.setScrollY v).resp = s.resp := rfl
@[simp] theorem State.setScrollY_draws (s : State) (v : Byte) : (s.setScrollY v).draws = s.draws := rfl

@[simp] theorem State.setVaddr_ctrl (s : State) (v : Addr14) : (s.setVaddr v).ctrl = s.ctrl := rfl
@[simp] theorem State.setVaddr_mask (s : State) (v : Addr14) : (s.setVaddr v).mask = s.mask := rfl
@[simp] theorem State.setVaddr_status (s : State) (v : Addr14) : (s.setVaddr v).status = s.status := rfl
@[simp] theorem State.setVaddr_scrollX (s : State) (v : Addr14) : (s.setVaddr v).scrollX = s.scrollX := rfl
@[simp] theorem State.setVaddr_scrollY (s : State) (v : Addr14) : (s.setVaddr v).scrollY = s.scrollY := rfl
@[simp] theorem State.setVaddr_vaddr (s : State) (v : Addr14) : (s.setVaddr v).vaddr = v := rfl
@[simp] theorem State.setVaddr_vtog (s : State) (v : Addr14) : (s.setVaddr v).vtog = s.vtog := rfl
@[simp] theorem State.setVaddr_oamaddr (s : State) (v : Addr14) : (s.setVaddr v).oamaddr = s.oamaddr := rfl
@[simp] theorem State.setVaddr_oam (s : State) (v : Addr14) : (s.setVaddr v).oam = s.oam := rfl
@[simp] theorem State.setVaddr_pal (s : State) (v : Addr14) : (s.setVaddr v).pal = s.pal := rfl
@[simp] theorem State.setVaddr_scan (s : State) (v : Addr14) : (s.setVaddr v).scan = s.scan := rfl
@[simp] theorem State.setVaddr_fb (s : State) (v : Addr14) : (s.setVaddr v).fb = s.fb := rfl
@[simp] theorem State.setVaddr_dot (s : State) (v : Addr14) : (s.setVaddr v).dot = s.dot := rfl
@[simp] theorem State.setVaddr_line (s : State) (v : Addr14) : (s.setVaddr v).line = s.line := rfl
@[simp] theorem State.setVaddr_ipend (s : State) (v : Addr14) : (s.setVaddr v).ipend = s.ipend := rfl
@[simp] theorem State.setVaddr_hitcol (s : State) (v : Addr14) : (s.setVaddr v).hitcol = s.hitcol := rfl
@[simp] theorem State.setVaddr_clk (s : State) (v : Addr14) : (s.setVaddr v).clk = s.clk := rfl
@[simp] theorem State.setVaddr_dma (s : State) (v : Addr14) : (s.setVaddr v).dma = s.dma := rfl
@[simp] theorem State.setVaddr_nmiprev (s : State) (v : Addr14) : (s.setVaddr v).nmiprev = s.nmiprev := rfl
@[simp] theorem State.setVaddr_totdots (s : State) (v : Addr14) : (s.setVaddr v).totdots = s.totdots := rfl
@[simp] theorem State.setVaddr_lastrep (s : State) (v : Addr14) : (s.setVaddr v).lastrep = s.lastrep := rfl
@[simp] theorem State.setVaddr_fault (s : State) (v : Addr14) : (s.setVaddr v).fault = s.fault := rfl
@[simp] theorem State.setVaddr_cpu (s : State) (v : Addr14) : (s.setVaddr v).cpu = s.cpu := rfl
@[simp] theorem State.setVaddr_cart (s : State) (v : Addr14) : (s.setVaddr v).cart = s.cart := rfl
@[simp] theorem State.setVaddr_params (s : State) (v : Addr14) : (s.setVaddr v).params = s.params := rfl
@[simp] theorem State.setVaddr_script (s : State) (v : Addr14) : (s.setVaddr v).script = s.script := rfl
@[simp] theorem State.setVaddr_resp (s : State) (v : Addr14) : (s.setVaddr v).resp = s.resp := rfl
@[simp] theorem State.setVaddr_draws (s : State) (v : Addr14) : (s.setVaddr v).draws = s.draws := rfl

@[simp] theorem State.setVtog_ctrl (s : State) (v : Bool) : (s.setVtog v).ctrl = s.ctrl := rfl
@[simp] theorem State.setVtog_mask (s : State) (v : Bool) : (s.setVtog v).mask = s.mask := rfl
@[simp] theorem State.setVtog_status (s : State) (v : Bool) : (s.setVtog v).status = s.status := rfl
@[simp] theorem State.setVtog_scrollX (s : State) (v : Bool) : (s.setVtog v).scrollX = s.scrollX := rfl
@[simp] theorem State.setVtog_scrollY (s : State) (v : Bool) : (s.setVtog v).scrollY = s.scrollY := rfl
@[simp] theorem State.setVtog_vaddr (s : State) (v : Bool) : (s.setVtog v).vaddr = s.vaddr := rfl
@[simp] theorem State.setVtog_vtog (s : State) (v : Bool) : (s.setVtog v).vtog = v := rfl
@[simp] theorem State.setVtog_oamaddr (s : State) (v : Bool) : (s.setVtog v).oamaddr = s.oamaddr := rfl
@[simp] theorem State.setVtog_oam (s : State) (v : Bool) : (s.setVtog v).oam = s.oam := rfl
@[simp] theorem State.setVtog_pal (s : State) (v : Bool) : (s.setVtog v).pal = s.pal := rfl
@[simp] theorem State.setVtog_scan (s : State) (v : Bool) : (s.setVtog v).scan = s.scan := rfl
@[simp] theorem State.setVtog_fb (s : State) (v : Bool) : (s.setVtog v).fb = s.fb := rfl
@[simp] theorem State.setVtog_dot (s : State) (v : Bool) : (s.setVtog v).dot = s.dot := rfl
@[simp] theorem State.setVtog_line (s : State) (v : Bool) : (s.setVtog v).line = s.line := rfl
@[simp] theorem State.setVtog_ipend (s : State) (v : Bool) : (s.setVtog v).ipend = s.ipend := rfl
@[simp] theorem State.setVtog_hitcol (s : State) (v : Bool) : (s.setVtog v).hitcol = s.hitcol := rfl
@[simp] theorem State.setVtog_clk (s : State) (v : Bool) : (s.setVtog v).clk = s.clk := rfl
@[simp] theorem State.setVtog_dma (s : State) (v : Bool) : (s.setVtog v).dma = s.dma := rfl
@[simp] theorem State.setVtog_nmiprev (s : State) (v : Bool) : (s.setVtog v).nmiprev = s.nmiprev := rfl
@[simp] theorem State.setVtog_totdots (s : State) (v : Bool) : (s.setVtog v).totdots = s.totdots := rfl
@[simp] theorem State.setVtog_lastrep (s : State) (v : Bool) : (s.setVtog v).lastrep = s.lastrep := rfl
@[simp] theorem State.setVtog_fault (s : State) (v : Bool) : (s.setVtog v).fault = s.fault := rfl
@[simp] theorem State.setVtog_cpu (s : State) (v : Bool) : (s.setVtog v).cpu = s.cpu := rfl
@[simp] theorem State.setVtog_cart (s : State) (v : Bool) : (s.setVtog v).cart = s.cart := rfl
@[simp] theorem State.setVtog_params (s : State) (v : Bool) : (s.setVtog v).params = s.params := rfl
@[simp] theorem State.setVtog_script (s : State) (v : Bool) : (s.setVtog v).script = s.script := rfl
@[simp] theorem State.setVtog_resp (s : State) (v : Bool) : (s.setVtog v).resp = s.resp := rfl
@[simp] theorem State.setVtog_draws (s : State) (v : Bool) : (s.setVtog v).draws = s.draws := rfl

@[simp] theorem State.setOamaddr_ctrl (s : State) (v : Byte) : (s.setOamaddr v).ctrl = s.ctrl := rfl
@[simp] theorem State.setOamaddr_mask (s : State) (v : Byte) : (s.setOamaddr v).mask = s.mask := rfl
@[simp] theorem State.setOamaddr_status (s : State) (v : Byte) : (s.setOamaddr v).status = s.status := rfl
@[simp] theorem State.setOamaddr_scrollX (s : State) (v : Byte) : (s.setOamaddr v).scrollX = s.scrollX := rfl
@[simp] theorem State.setOamaddr_scrollY (s : State) (v : Byte) : (s.setOamaddr v).scrollY = s.scrollY := rfl
@[simp] theorem State.setOamaddr_vaddr (s : State) (v : Byte) : (s.setOamaddr v).vaddr = s.vaddr := rfl
@[simp] theorem State.setOamaddr_vtog (s : State) (v : Byte) : (s.setOamaddr v).vtog = s.vtog := rfl
@[simp] theorem State.setOamaddr_oamaddr (s : State) (v : Byte) : (s.setOamaddr v).oamaddr = v := rfl
@[simp] theorem State.setOamaddr_oam (s : State) (v : Byte) : (s.setOamaddr v).oam = s.oam := rfl
@[simp] theorem State.setOamaddr_pal (s : State) (v : Byte) : (s.setOamaddr v).pal = s.pal := rfl
@[simp] theorem State.setOamaddr_scan (s : State) (v : Byte) : (s.setOamaddr v).scan = s.scan := rfl
@[simp] theorem State.setOamaddr_fb (s : State) (v : Byte) : (s.setOamaddr v).fb = s.fb := rfl
@[simp] theorem State.setOamaddr_dot (s : State) (v : Byte) : (s.setOamaddr v).dot = s.dot := rfl
@[simp] theorem State.setOamaddr_line (s : State) (v : Byte) : (s.setOamaddr v).line = s.line := rfl
@[simp] theorem State.setOamaddr_ipend (s : State) (v : Byte) : (s.setOamaddr v).ipend = s.ipend := rfl
@[simp] theorem State.setOamaddr_hitcol (s : State) (v : Byte) : (s.setOamaddr v).hitcol = s.hitcol := rfl
@[simp] theorem State.setOamaddr_clk (s : State) (v : Byte) : (s.setOamaddr v).clk = s.clk := rfl
@[simp] theorem State.setOamaddr_dma (s : State) (v : Byte) : (s.setOamaddr v).dma = s.dma := rfl
@[simp] theorem State.setOamaddr_nmiprev (s : State) (v : Byte) : (s.setOamaddr v).nmiprev = s.nmiprev := rfl
@[simp] theorem State.setOamaddr_totdots (s : State) (v : Byte) : (s.setOamaddr v).totdots = s.totdots := rfl
@[simp] theorem State.setOamaddr_lastrep (s : State) (v : Byte) : (s.setOamaddr v).lastrep = s.lastrep := rfl
@[simp] theorem State.setOamaddr_fault (s : State) (v : Byte) : (s.setOamaddr v).fault = s.fault := rfl
@[simp] theorem State.setOamaddr_cpu (s : State) (v : Byte) : (s.setOamaddr v).cpu = s.cpu := rfl
@[simp] theorem State.setOamaddr_cart (s : State) (v : Byte) : (s.setOamaddr v).cart = s.cart := rfl
@[simp] theorem State.setOamaddr_params (s : State) (v : Byte) : (s.setOamaddr v).params = s.params := rfl
@[simp] theorem State.setOamaddr_script (s : State) (v : Byte) : (s.setOamaddr v).script = s.script := rfl
@[simp] theorem State.setOamaddr_resp (s : State) (v : Byte) : (s.setOamaddr v).resp = s.resp := rfl
@[simp] theorem State.setOamaddr_draws (s : State) (v : Byte) : (s.setOamaddr v).draws = s.draws := rfl

@[simp] theorem State.setOam_ctrl (s : State) (v : Memory Byte) : (s.setOam v).ctrl = s.ctrl := rfl
@[simp] theorem State.setOam_mask (s : State) (v : Memory Byte) : (s.setOam v).mask = s.mask := rfl
@[simp] theorem State.setOam_status (s : State) (v : Memory Byte) : (s.setOam v).status = s.status := rfl
@[simp] theorem State.setOam_scrollX (s : State) (v : Memory Byte) : (s.setOam v).scrollX = s.scrollX := rfl
@[simp] theorem State.setOam_scrollY (s : State) (v : Memory Byte) : (s.setOam v).scrollY = s.scrollY := rfl
@[simp] theorem State.setOam_vaddr (s : State) (v : Memory Byte) : (s.setOam v).vaddr = s.vaddr := rfl
@[simp] theorem State.setOam_vtog (s : State) (v : Memory Byte) : (s.setOam v).vtog = s.vtog := rfl
@[simp] theorem State.setOam_oamaddr (s : State) (v : Memory Byte) : (s.setOam v).oamaddr = s.oamaddr := rfl
@[simp] theorem State.setOam_oam (s : State) (v : Memory Byte) : (s.setOam v).oam = v := rfl
@[simp] theorem State.setOam_pal (s : State) (v : Memory Byte) : (s.setOam v).pal = s.pal := rfl
@[simp] theorem State.setOam_scan (s : State) (v : Memory Byte) : (s.setOam v).scan = s.scan := rfl
@[simp] theorem State.setOam_fb (s : State) (v : Memory Byte) : (s.setOam v).fb = s.fb := rfl
@[simp] theorem State.setOam_dot (s : State) (v : Memory Byte) : (s.setOam v).dot = s.dot := rfl
@[simp] theorem State.setOam_line (s : State) (v : Memory Byte) : (s.setOam v).line = s.line := rfl
@[simp] theorem State.setOam_ipend (s : State) (v : Memory Byte) : (s.setOam v).ipend = s.ipend := rfl
@[simp] theorem State.setOam_hitcol (s : State) (v : Memory Byte) : (s.setOam v).hitcol = s.hitcol := rfl
@[simp] theorem State.setOam_clk (s : State) (v : Memory Byte) : (s.setOam v).clk = s.clk := rfl
@[simp] theorem State.setOam_dma (s : State) (v : Memory Byte) : (s.setOam v).dma = s.dma := rfl
@[simp] theorem State.setOam_nmiprev (s : State) (v : Memory Byte) : (s.setOam v).nmiprev = s.nmiprev := rfl
@[simp] theorem State.setOam_totdots (s : State) (v : Memory Byte) : (s.setOam v).totdots = s.totdots := rfl
@[simp] theorem State.setOam_lastrep (s : State) (v : Memory Byte) : (s.setOam v).lastrep = s.lastrep := rfl
@[simp] theorem State.setOam_fault (s : State) (v : Memory Byte) : (s.setOam v).fault = s.fault := rfl
@[simp] theorem State.setOam_cpu (s : State) (v : Memory Byte) : (s.setOam v).cpu = s.cpu := rfl
@[simp] theorem State.setOam_cart (s : State) (v : Memory Byte) : (s.setOam v).cart = s.cart := rfl
@[simp] theorem State.setOam_params (s : State) (v : Memory Byte) : (s.setOam v).params = s.params := rfl
@[simp] theorem State.setOam_script (s : State) (v : Memory Byte) : (s.setOam v).script = s.script := rfl
@[simp] theorem State.setOam_resp (s : State) (v : Memory Byte) : (s.setOam v).resp = s.resp := rfl
@[simp] theorem State.setOam_draws (s : State) (v : Memory Byte) : (s.setOam v).draws = s.draws := rfl

@[simp] theorem State.setPal_ctrl (s : State) (v : Memory Byte) : (s.setPal v).ctrl = s.ctrl := rfl
@[simp] theorem State.setPal_mask (s : State) (v : Memory Byte) : (s.setPal v).mask = s.mask := rfl
@[simp] theorem State.setPal_status (s : State) (v : Memory Byte) : (s.setPal v).status = s.status := rfl
@[simp] theorem State.setPal_scrollX (s : State) (v : Memory Byte) : (s.setPal v).scrollX = s.scrollX := rfl
@[simp] theorem State.setPal_scrollY (s : State) (v : Memory Byte) : (s.setPal v).scrollY = s.scrollY := rfl
@[simp] theorem State.setPal_vaddr (s : State) (v : Memory Byte) : (s.setPal v).vaddr = s.vaddr := rfl
@[simp] theorem State.setPal_vtog (s : State) (v : Memory Byte) : (s.setPal v).vtog = s.vtog := rfl
@[simp] theorem State.setPal_oamaddr (s : State) (v : Memory Byte) : (s.setPal v).oamaddr = s.oamaddr := rfl
@[simp] theorem State.setPal_oam (s : State) (v : Memory Byte) : (s.setPal v).oam = s.oam := rfl
@[simp] theorem State.setPal_pal (s : State) (v : Memory Byte) : (s.setPal v).pal = v := rfl
@[simp] theorem State.setPal_scan (s : State) (v : Memory Byte) : (s.setPal v).scan = s.scan := rfl
@[simp] theorem State.setPal_fb (s : State) (v : Memory Byte) : (s.setPal v).fb = s.fb := rfl
@[simp] theorem State.setPal_dot (s : State) (v : Memory Byte) : (s.setPal v).dot = s.dot := rfl
@[simp] theorem State.setPal_line (s : State) (v : Memory Byte) : (s.setPal v).line = s.line := rfl
@[simp] theorem State.setPal_ipend (s : State) (v : Memory Byte) : (s.setPal v).ipend = s.ipend := rfl
@[simp] theorem State.setPal_hitcol (s : State) (v : Memory Byte) : (s.setPal v).hitcol = s.hitcol := rfl
@[simp] theorem State.setPal_clk (s : State) (v : Memory Byte) : (s.setPal v).clk = s.clk := rfl
@[simp] theorem State.setPal_dma (s : State) (v : Memory Byte) : (s.setPal v).dma = s.dma := rfl
@[simp] theorem State.setPal_nmiprev (s : State) (v : Memory Byte) : (s.setPal v).nmiprev = s.nmiprev := rfl
@[simp] theorem State.setPal_totdots (s : State) (v : Memory Byte) : (s.setPal v).totdots = s.totdots := rfl
@[simp] theorem State.setPal_lastrep (s : State) (v : Memory Byte) : (s.setPal v).lastrep = s.lastrep := rfl
@[simp] theorem State.setPal_fault (s : State) (v : Memory Byte) : (s.setPal v).fault = s.fault := rfl
@[simp] theorem State.setPal_cpu (s : State) (v : Memory Byte) : (s.setPal v).cpu = s.cpu := rfl
@[simp] theorem State.setPal_cart (s : State) (v : Memory Byte) : (s.setPal v).cart = s.cart := rfl
@[simp] theorem State.setPal_params (s : State) (v : Memory Byte) : (s.setPal v).params = s.params := rfl
@[simp] theorem State.setPal_script (s : State) (v : Memory Byte) : (s.setPal v).script = s.script := rfl
@[simp] theorem State.setPal_resp (s : State) (v : Memory Byte) : (s.setPal v).resp = s.resp := rfl
@[simp] theorem State.setPal_draws (s : State) (v : Memory Byte) : (s.setPal v).draws = s.draws := rfl

@[simp] theorem State.setScan_ctrl (s : State) (v : Memory Cell5) : (s.setScan v).ctrl = s.ctrl := rfl
@[simp] theorem State.setScan_mask (s : State) (v : Memory Cell5) : (s.setScan v).mask = s.mask := rfl
@[simp] theorem State.setScan_status (s : State) (v : Memory Cell5) : (s.setScan v).status = s.status := rfl
@[simp] theorem State.setScan_scrollX (s : State) (v : Memory Cell5) : (s.setScan v).scrollX = s.scrollX := rfl
@[simp] theorem State.setScan_scrollY (s : State) (v : Memory Cell5) : (s.setScan v).scrollY = s.scrollY := rfl
@[simp] theorem State.setScan_vaddr (s : State) (v : Memory Cell5) : (s.setScan v).vaddr = s.vaddr := rfl
@[simp] theorem State.setScan_vtog (s : State) (v : Memory Cell5) : (s.setScan v).vtog = s.vtog := rfl
@[simp] theorem State.setScan_oamaddr (s : State) (v : Memory Cell5) : (s.setScan v).oamaddr = s.oamaddr := rfl
@[simp] theorem State.setScan_oam (s : State) (v : Memory Cell5) : (s.setScan v).oam = s.oam := rfl
@[simp] theorem State.setScan_pal (s : State) (v : Memory Cell5) : (s.setScan v).pal = s.pal := rfl
@[simp] theorem State.setScan_scan (s : State) (v : Memory Cell5) : (s.setScan v).scan = v := rfl
@[simp] theorem State.setScan_fb (s : State) (v : Memory Cell5) : (s.setScan v).fb = s.fb := rfl
@[simp] theorem State.setScan_dot (s : State) (v : Memory Cell5) : (s.setScan v).dot = s.dot := rfl
@[simp] theorem State.setScan_line (s : State) (v : Memory Cell5) : (s.setScan v).line = s.line := rfl
@[simp] theorem State.setScan_ipend (s : State) (v : Memory Cell5) : (s.setScan v).ipend = s.ipend := rfl
@[simp] theorem State.setScan_hitcol (s : State) (v : Memory Cell5) : (s.setScan v).hitcol = s.hitcol := rfl
@[simp] theorem State.setScan_clk (s : State) (v : Memory Cell5) : (s.setScan v).clk = s.clk := rfl
@[simp] theorem State.setScan_dma (s : State) (v : Memory Cell5) : (s.setScan v).dma = s.dma := rfl
@[simp] theorem State.setScan_nmiprev (s : State) (v : Memory Cell5) : (s.setScan v).nmiprev = s.nmiprev := rfl
@[simp] theorem State.setScan_totdots (s : State) (v : Memory Cell5) : (s.setScan v).totdots = s.totdots := rfl
@[simp] theorem State.setScan_lastrep (s : State) (v : Memory Cell5) : (s.setScan v).lastrep = s.lastrep := rfl
@[simp] theorem State.setScan_fault (s : State) (v : Memory Cell5) : (s.setScan v).fault = s.fault := rfl
@[simp] theorem State.setScan_cpu (s : State) (v : Memory Cell5) : (s.setScan v).cpu = s.cpu := rfl
@[simp] theorem State.setScan_cart (s : State) (v : Memory Cell5) : (s.setScan v).cart = s.cart := rfl
@[simp] theorem State.setScan_params (s : State) (v : Memory Cell5) : (s.setScan v).params = s.params := rfl
@[simp] theorem State.setScan_script (s : State) (v : Memory Cell5) : (s.setScan v).script = s.script := rfl
@[simp] theorem State.setScan_resp (s : State) (v : Memory Cell5) : (s.setScan v).resp = s.resp := rfl
@[simp] theorem State.setScan_draws (s : State) (v : Memory Cell5) : (s.setScan v).draws = s.draws := rfl

@[simp] theorem State.setFb_ctrl (s : State) (v : Memory Colour) : (s.setFb v).ctrl = s.ctrl := rfl
@[simp] theorem State.setFb_mask (s : State) (v : Memory Colour) : (s.setFb v).mask = s.mask := rfl
@[simp] theorem State.setFb_status (s : State) (v : Memory Colour) : (s.setFb v).status = s.status := rfl
@[simp] theorem State.setFb_scrollX (s : State) (v : Memory Colour) : (s.setFb v).scrollX = s.scrollX := rfl
@[simp] theorem State.setFb_scrollY (s : State) (v : Memory Colour) : (s.setFb v).scrollY = s.scrollY := rfl
@[simp] theorem State.setFb_vaddr (s : State) (v : Memory Colour) : (s.setFb v).vaddr = s.vaddr := rfl
@[simp] theorem State.setFb_vtog (s : State) (v : Memory Colour) : (s.setFb v).vtog = s.vtog := rfl
@[simp] theorem State.setFb_oamaddr (s : State) (v : Memory Colour) : (s.setFb v).oamaddr = s.oamaddr := rfl
@[simp] theorem State.setFb_oam (s : State) (v : Memory Colour) : (s.setFb v).oam = s.oam := rfl
@[simp] theorem State.setFb_pal (s : State) (v : Memory Colour) : (s.setFb v).pal = s.pal := rfl
@[simp] theorem State.setFb_scan (s : State) (v : Memory Colour) : (s.setFb v).scan = s.scan := rfl
@[simp] theorem State.setFb_fb (s : State) (v : Memory Colour) : (s.setFb v).fb = v := rfl
@[simp] theorem State.setFb_dot (s : State) (v : Memory Colour) : (s.setFb v).dot = s.dot := rfl
@[simp] theorem State.setFb_line (s : State) (v : Memory Colour) : (s.setFb v).line = s.line := rfl
@[simp] theorem State.setFb_ipend (s : State) (v : Memory Colour) : (s.setFb v).ipend = s.ipend := rfl
@[simp] theorem State.setFb_hitcol (s : State) (v : Memory Colour) : (s.setFb v).hitcol = s.hitcol := rfl
@[simp] theorem State.setFb_clk (s : State) (v : Memory Colour) : (s.setFb v).clk = s.clk := rfl
@[simp] theorem State.setFb_dma (s : State) (v : Memory Colour) : (s.setFb v).dma = s.dma := rfl
@[simp] theorem State.setFb_nmiprev (s : State) (v : Memory Colour) : (s.setFb v).nmiprev = s.nmiprev := rfl
@[simp] theorem State.setFb_totdots (s : State) (v : Memory Colour) : (s.setFb v).totdots = s.totdots := rfl
@[simp] theorem State.setFb_lastrep (s : State) (v : Memory Colour) : (s.setFb v).lastrep = s.lastrep := rfl
@[simp] theorem State.setFb_fault (s : State) (v : Memory Colour) : (s.setFb v).fault = s.fault := rfl
@[simp] theorem State.setFb_cpu (s : State) (v : Memory Colour) : (s.setFb v).cpu = s.cpu := rfl
@[simp] theorem State.setFb_cart (s : State) (v : Memory Colour) : (s.setFb v).cart = s.cart := rfl
@[simp] theorem State.setFb_params (s : State) (v : Memory Colour) : (s.setFb v).params = s.params := rfl
@[simp] theorem State.setFb_script (s : State) (v : Memory Colour) : (s.setFb v).script = s.script := rfl
@[simp] theorem State.setFb_resp (s : State) (v : Memory Colour) : (s.setFb v).resp = s.resp := rfl
@[simp] theorem State.setFb_draws (s : State) (v : Memory Colour) : (s.setFb v).draws = s.draws := rfl

@[simp] theorem State.setDot_ctrl (s : State) (v : Fin 341) : (s.setDot v).ctrl = s.ctrl := rfl
@[simp] theorem State.setDot_mask (s : State) (v : Fin 341) : (s.setDot v).mask = s.mask := rfl
@[simp] theorem State.setDot_status (s : State) (v : Fin 341) : (s.setDot v).status = s.status := rfl
@[simp] theorem State.setDot_scrollX (s : State) (v : Fin 341) : (s.setDot v).scrollX = s.scrollX := rfl
@[simp] theorem State.setDot_scrollY (s : State) (v : Fin 341) : (s.setDot v).scrollY = s.scrollY := rfl
@[simp] theorem State.setDot_vaddr (s : State) (v : Fin 341) : (s.setDot v).vaddr = s.vaddr := rfl
@[simp] theorem State.setDot_vtog (s : State) (v : Fin 341) : (s.setDot v).vtog = s.vtog := rfl
@[simp] theorem State.setDot_oamaddr (s : State) (v : Fin 341) : (s.setDot v).oamaddr = s.oamaddr := rfl
@[simp] theorem State.setDot_oam (s : State) (v : Fin 341) : (s.setDot v).oam = s.oam := rfl
@[simp] theorem State.setDot_pal (s : State) (v : Fin 341) : (s.setDot v).pal = s.pal := rfl
@[simp] theorem State.setDot_scan (s : State) (v : Fin 341) : (s.setDot v).scan = s.scan := rfl
@[simp] theorem State.setDot_fb (s : State) (v : Fin 341) : (s.setDot v).fb = s.fb := rfl
@[simp] theorem State.setDot_dot (s : State) (v : Fin 341) : (s.setDot v).dot = v := rfl
@[simp] theorem State.setDot_line (s : State) (v : Fin 341) : (s.setDot v).line = s.line := rfl
@[simp] theorem State.setDot_ipend (s : State) (v : Fin 341) : (s.setDot v).ipend = s.ipend := rfl
@[simp] theorem State.setDot_hitcol (s : State) (v : Fin 341) : (s.setDot v).hitcol = s.hitcol := rfl
@[simp] theorem State.setDot_clk (s : State) (v : Fin 341) : (s.setDot v).clk = s.clk := rfl
@[simp] theorem State.setDot_dma (s : State) (v : Fin 341) : (s.setDot v).dma = s.dma := rfl
@[simp] theorem State.setDot_nmiprev (s : State) (v : Fin 341) : (s.setDot v).nmiprev = s.nmiprev := rfl
@[simp] theorem State.setDot_totdots (s : State) (v : Fin 341) : (s.setDot v).totdots = s.totdots := rfl
@[simp] theorem State.setDot_lastrep (s : State) (v : Fin 341) : (s.setDot v).lastrep = s.lastrep := rfl
@[simp] theorem State.setDot_fault (s : State) (v : Fin 341) : (s.setDot v).fault = s.fault := rfl
@[simp] theorem State.setDot_cpu (s : State) (v : Fin 341) : (s.setDot v).cpu = s.cpu := rfl
@[simp] theorem State.setDot_cart (s : State) (v : Fin 341) : (s.setDot v).cart = s.cart := rfl
@[simp] theorem State.setDot_params (s : State) (v : Fin 341) : (s.setDot v).params = s.params := rfl
@[simp] theorem State.setDot_script (s : State) (v : Fin 341) : (s.setDot v).script = s.script := rfl
@[simp] theorem State.setDot_resp (s : State) (v : Fin 341) : (s.setDot v).resp = s.resp := rfl
@[simp] theorem State.setDot_draws (s : State) (v : Fin 341) : (s.setDot v).draws = s.draws := rfl

@[simp] theorem State.setLine_ctrl (s : State) (v : Fin 262) : (s.setLine v).ctrl = s.ctrl := rfl
@[simp] theorem State.setLine_mask (s : State) (v : Fin 262) : (s.setLine v).mask = s.mask := rfl
@[simp] theorem State.setLine_status (s : State) (v : Fin 262) : (s.setLine v).status = s.status := rfl
@[simp] theorem State.setLine_scrollX (s : State) (v : Fin 262) : (s.setLine v).scrollX = s.scrollX := rfl
@[simp] theorem State.setLine_scrollY (s : State) (v : Fin 262) : (s.setLine v).scrollY = s.scrollY := rfl
@[simp] theorem State.setLine_vaddr (s : State) (v : Fin 262) : (s.setLine v).vaddr = s.vaddr := rfl
@[simp] theorem State.setLine_vtog (s : State) (v : Fin 262) : (s.setLine v).vtog = s.vtog := rfl
@[simp] theorem State.setLine_oamaddr (s : State) (v : Fin 262) : (s.setLine v).oamaddr = s.oamaddr := rfl
@[simp] theorem State.setLine_oam (s : State) (v : Fin 262) : (s.setLine v).oam = s.oam := rfl
@[simp] theorem State.setLine_pal (s : State) (v : Fin 262) : (s.setLine v).pal = s.pal := rfl
@[simp] theorem State.setLine_scan (s : State) (v : Fin 262) : (s.setLine v).scan = s.scan := rfl
@[simp] theorem State.setLine_fb (s : State) (v : Fin 262) : (s.setLine v).fb = s.fb := rfl
@[simp] theorem State.setLine_dot (s : State) (v : Fin 262) : (s.setLine v).dot = s.dot := rfl
@[simp] theorem State.setLine_line (s : State) (v : Fin 262) : (s.setLine v).line = v := rfl
@[simp] theorem State.setLine_ipend (s : State) (v : Fin 262) : (s.setLine v).ipend = s.ipend := rfl
@[simp] theorem State.setLine_hitcol (s : State) (v : Fin 262) : (s.setLine v).hitcol = s.hitcol := rfl
@[simp] theorem State.setLine_clk (s : State) (v : Fin 262) : (s.setLine v).clk = s.clk := rfl
@[simp] theorem State.setLine_dma (s : State) (v : Fin 262) : (s.setLine v).dma = s.dma := rfl
@[simp] theorem State.setLine_nmiprev (s : State) (v : Fin 262) : (s.setLine v).nmiprev = s.nmiprev := rfl
@[simp] theorem State.setLine_totdots (s : State) (v : Fin 262) : (s.setLine v).totdots = s.totdots := rfl
@[simp] theorem State.setLine_lastrep (s : State) (v : Fin 262) : (s.setLine v).lastrep = s.lastrep := rfl
@[simp] theorem State.setLine_fault (s : State) (v : Fin 262) : (s.setLine v).fault = s.fault := rfl
@[simp] theorem State.setLine_cpu (s : State) (v : Fin 262) : (s.setLine v).cpu = s.cpu := rfl
@[simp] theorem State.setLine_cart (s : State) (v : Fin 262) : (s.setLine v).cart = s.cart := rfl
@[simp] theorem State.setLine_params (s : State) (v : Fin 262) : (s.setLine v).params = s.params := rfl
@[simp] theorem State.setLine_script (s : State) (v : Fin 262) : (s.setLine v).script = s.script := rfl
@[simp] theorem State.setLine_resp (s : State) (v : Fin 262) : (s.setLine v).resp = s.resp := rfl
@[simp] theorem State.setLine_draws (s : State) (v : Fin 262) : (s.setLine v).draws = s.draws := rfl

@[simp] theorem State.setIpend_ctrl (s : State) (v : Bool) : (s.setIpend v).ctrl = s.ctrl := rfl
@[simp] theorem State.setIpend_mask (s : State) (v : Bool) : (s.setIpend v).mask = s.mask := rfl
@[simp] theorem State.setIpend_status (s : State) (v : Bool) : (s.setIpend v).status = s.status := rfl
@[simp] theorem State.setIpend_scrollX (s : State) (v : Bool) : (s.setIpend v).scrollX = s.scrollX := rfl
@[simp] theorem State.setIpend_scrollY (s : State) (v : Bool) : (s.setIpend v).scrollY = s.scrollY := rfl
@[simp] theorem State.setIpend_vaddr (s : State) (v : Bool) : (s.setIpend v).vaddr = s.vaddr := rfl
@[simp] theorem State.setIpend_vtog (s : State) (v : Bool) : (s.setIpend v).vtog = s.vtog := rfl
@[simp] theorem State.setIpend_oamaddr (s : State) (v : Bool) : (s.setIpend v).oamaddr = s.oamaddr := rfl
@[simp] theorem State.setIpend_oam (s : State) (v : Bool) : (s.setIpend v).oam = s.oam := rfl
@[simp] theorem State.setIpend_pal (s : State) (v : Bool) : (s.setIpend v).pal = s.pal := rfl
@[simp] theorem State.setIpend_scan (s : State) (v : Bool) : (s.setIpend v).scan = s.scan := rfl
@[simp] theorem State.setIpend_fb (s : State) (v : Bool) : (s.setIpend v).fb = s.fb := rfl
@[simp] theorem State.setIpend_dot (s : State) (v : Bool) : (s.setIpend v).dot = s.dot := rfl
@[simp] theorem State.setIpend_line (s : State) (v : Bool) : (s.setIpend v).line = s.line := rfl
@[simp] theorem State.setIpend_ipend (s : State) (v : Bool) : (s.setIpend v).ipend = v := rfl
@[simp] theorem State.setIpend_hitcol (s : State) (v : Bool) : (s.setIpend v).hitcol = s.hitcol := rfl
@[simp] theorem State.setIpend_clk (s : State) (v : Bool) : (s.setIpend v).clk = s.clk := rfl
@[simp] theorem State.setIpend_dma (s : State) (v : Bool) : (s.setIpend v).dma = s.dma := rfl
@[simp] theorem State.setIpend_nmiprev (s : State) (v : Bool) : (s.setIpend v).nmiprev = s.nmiprev := rfl
@[simp] theorem State.setIpend_totdots (s : State) (v : Bool) : (s.setIpend v).totdots = s.totdots := rfl
@[simp] theorem State.setIpend_lastrep (s : State) (v : Bool) : (s.setIpend v).lastrep = s.lastrep := rfl
@[simp] theorem State.setIpend_fault (s : State) (v : Bool) : (s.setIpend v).fault = s.fault := rfl
@[simp] theorem State.setIpend_cpu (s : State) (v : Bool) : (s.setIpend v).cpu = s.cpu := rfl
@[simp] theorem State.setIpend_cart (s : State) (v : Bool) : (s.setIpend v).cart = s.cart := rfl
@[simp] theorem State.setIpend_params (s : State) (v : Bool) : (s.setIpend v).params = s.params := rfl
@[simp] theorem State.setIpend_script (s : State) (v : Bool) : (s.setIpend v).script = s.script := rfl
@[simp] theorem State.setIpend_resp (s : State) (v : Bool) : (s.setIpend v).resp = s.resp := rfl
@[simp] theorem State.setIpend_draws (s : State) (v : Bool) : (s.setIpend v).draws = s.draws := rfl

@[simp] theorem State.setHitcol_ctrl (s : State) (v : Option (Fin 255)) : (s.setHitcol v).ctrl = s.ctrl := rfl
@[simp] theorem State.setHitcol_mask (s : State) (v : Option (Fin 255)) : (s.setHitcol v).mask = s.mask := rfl
@[simp] theorem State.setHitcol_status (s : State) (v : Option (Fin 255)) : (s.setHitcol v).status = s.status := rfl
@[simp] theorem State.setHitcol_scrollX (s : State) (v : Option (Fin 255)) : (s.setHitcol v).scrollX = s.scrollX := rfl
@[simp] theorem State.setHitcol_scrollY (s : State) (v : Option (Fin 255)) : (s.setHitcol v).scrollY = s.scrollY := rfl
@[simp] theorem State.setHitcol_vaddr (s : State) (v : Option (Fin 255)) : (s.setHitcol v).vaddr = s.vaddr := rfl
@[simp] theorem State.setHitcol_vtog (s : State) (v : Option (Fin 255)) : (s.setHitcol v).vtog = s.vtog := rfl
@[simp] theorem State.setHitcol_oamaddr (s : State) (v : Option (Fin 255)) : (s.setHitcol v).oamaddr = s.oamaddr := rfl
@[simp] theorem State.setHitcol_oam (s : State) (v : Option (Fin 255)) : (s.setHitcol v).oam = s.oam := rfl
@[simp] theorem State.setHitcol_pal (s : State) (v : Option (Fin 255)) : (s.setHitcol v).pal = s.pal := rfl
@[simp] theorem State.setHitcol_scan (s : State) (v : Option (Fin 255)) : (s.setHitcol v).scan = s.scan := rfl
@[simp] theorem State.setHitcol_fb (s : State) (v : Option (Fin 255)) : (s.setHitcol v).fb = s.fb := rfl
@[simp] theorem State.setHitcol_dot (s : State) (v : Option (Fin 255)) : (s.setHitcol v).dot = s.dot := rfl
@[simp] theorem State.setHitcol_line (s : State) (v : Option (Fin 255)) : (s.setHitcol v).line = s.line := rfl
@[simp] theorem State.setHitcol_ipend (s : State) (v : Option (Fin 255)) : (s.setHitcol v).ipend = s.ipend := rfl
@[simp] theorem State.setHitcol_hitcol (s : State) (v : Option (Fin 255)) : (s.setHitcol v).hitcol = v := rfl
@[simp] theorem State.setHitcol_clk (s : State) (v : Option (Fin 255)) : (s.setHitcol v).clk = s.clk := rfl
@[simp] theorem State.setHitcol_dma (s : State) (v : Option (Fin 255)) : (s.setHitcol v).dma = s.dma := rfl
@[simp] theorem State.setHitcol_nmiprev (s : State) (v : Option (Fin 255)) : (s.setHitcol v).nmiprev = s.nmiprev := rfl
@[simp] theorem State.setHitcol_totdots (s : State) (v : Option (Fin 255)) : (s.setHitcol v).totdots = s.totdots := rfl
@[simp] theorem State.setHitcol_lastrep (s : State) (v : Option (Fin 255)) : (s.setHitcol v).lastrep = s.lastrep := rfl
@[simp] theorem State.setHitcol_fault (s : State) (v : Option (Fin 255)) : (s.setHitcol v).fault = s.fault := rfl
@[simp] theorem State.setHitcol_cpu (s : State) (v : Option (Fin 255)) : (s.setHitcol v).cpu = s.cpu := rfl
@[simp] theorem State.setHitcol_cart (s : State) (v : Option (Fin 255)) : (s.setHitcol v).cart = s.cart := rfl
@[simp] theorem State.setHitcol_params (s : State) (v : Option (Fin 255)) : (s.setHitcol v).params = s.params := rfl
@[simp] theorem State.setHitcol_script (s : State) (v : Option (Fin 255)) : (s.setHitcol v).script = s.script := rfl
@[simp] theorem State.setHitcol_resp (s : State) (v : Option (Fin 255)) : (s.setHitcol v).resp = s.resp := rfl
@[simp] theorem State.setHitcol_draws (s : State) (v : Option (Fin 255)) : (s.setHitcol v).draws = s.draws := rfl

@[simp] theorem State.setClk_ctrl (s : State) (v : Nat) : (s.setClk v).ctrl = s.ctrl := rfl
@[simp] theorem State.setClk_mask (s : State) (v : Nat) : (s.setClk v).mask = s.mask := rfl
@[simp] theorem State.setClk_status (s : State) (v : Nat) : (s.setClk v).status = s.status := rfl
@[simp] theorem State.setClk_scrollX (s : State) (v : Nat) : (s.setClk v).scrollX = s.scrollX := rfl
@[simp] theorem State.setClk_scrollY (s : State) (v : Nat) : (s.setClk v).scrollY = s.scrollY := rfl
@[simp] theorem State.setClk_vaddr (s : State) (v : Nat) : (s.setClk v).vaddr = s.vaddr := rfl
@[simp] theorem State.setClk_vtog (s : State) (v : Nat) : (s.setClk v).vtog = s.vtog := rfl
@[simp] theorem State.setClk_oamaddr (s : State) (v : Nat) : (s.setClk v).oamaddr = s.oamaddr := rfl
@[simp] theorem State.setClk_oam (s : State) (v : Nat) : (s.setClk v).oam = s.oam := rfl
@[simp] theorem State.setClk_pal (s : State) (v : Nat) : (s.setClk v).pal = s.pal := rfl
@[simp] theorem State.setClk_scan (s : State) (v : Nat) : (s.setClk v).scan = s.scan := rfl
@[simp] theorem State.setClk_fb (s : State) (v : Nat) : (s.setClk v).fb = s.fb := rfl
@[simp] theorem State.setClk_dot (s : State) (v : Nat) : (s.setClk v).dot = s.dot := rfl
@[simp] theorem State.setClk_line (s : State) (v : Nat) : (s.setClk v).line = s.line := rfl
@[simp] theorem State.setClk_ipend (s : State) (v : Nat) : (s.setClk v).ipend = s.ipend := rfl
@[simp] theorem State.setClk_hitcol (s : State) (v : Nat) : (s.setClk v).hitcol = s.hitcol := rfl
@[simp] theorem State.setClk_clk (s : State) (v : Nat) : (s.setClk v).clk = v := rfl
@[simp] theorem State.setClk_dma (s : State) (v : Nat) : (s.setClk v).dma = s.dma := rfl
@[simp] theorem State.setClk_nmiprev (s : State) (v : Nat) : (s.setClk v).nmiprev = s.nmiprev := rfl
@[simp] theorem State.setClk_totdots (s : State) (v : Nat) : (s.setClk v).totdots = s.totdots := rfl
@[simp] theorem State.setClk_lastrep (s : State) (v : Nat) : (s.setClk v).lastrep = s.lastrep := rfl
@[simp] theorem State.setClk_fault (s : State) (v : Nat) : (s.setClk v).fault = s.fault := rfl
@[simp] theorem State.setClk_cpu (s : State) (v : Nat) : (s.setClk v).cpu = s.cpu := rfl
@[simp] theorem State.setClk_cart (s : State) (v : Nat) : (s.setClk v).cart = s.cart := rfl
@[simp] theorem State.setClk_params (s : State) (v : Nat) : (s.setClk v).params = s.params := rfl
@[simp] theorem State.setClk_script (s : State) (v : Nat) : (s.setClk v).script = s.script := rfl
@[simp] theorem State.setClk_resp (s : State) (v : Nat) : (s.setClk v).resp = s.resp := rfl
@[simp] theorem State.setClk_draws (s : State) (v : Nat) : (s.setClk v).draws = s.draws := rfl

@[simp] theorem State.setDma_ctrl (s : State) (v : Dma) : (s.setDma v).ctrl = s.ctrl := rfl
@[simp] theorem State.setDma_mask (s : State) (v : Dma) : (s.setDma v).mask = s.mask := rfl
@[simp] theorem State.setDma_status (s : State) (v : Dma) : (s.setDma v).status = s.status := rfl
@[simp] theorem State.setDma_scrollX (s : State) (v : Dma) : (s.setDma v).scrollX = s.scrollX := rfl
@[simp] theorem State.setDma_scrollY (s : State) (v : Dma) : (s.setDma v).scrollY = s.scrollY := rfl
@[simp] theorem State.setDma_vaddr (s : State) (v : Dma) : (s.setDma v).vaddr = s.vaddr := rfl
@[simp] theorem State.setDma_vtog (s : State) (v : Dma) : (s.setDma v).vtog = s.vtog := rfl
@[simp] theorem State.setDma_oamaddr (s : State) (v : Dma) : (s.setDma v).oamaddr = s.oamaddr := rfl
@[simp] theorem State.setDma_oam (s : State) (v : Dma) : (s.setDma v).oam = s.oam := rfl
@[simp] theorem State.setDma_pal (s : State) (v : Dma) : (s.setDma v).pal = s.pal := rfl
@[simp] theorem State.setDma_scan (s : State) (v : Dma) : (s.setDma v).scan = s.scan := rfl
@[simp] theorem State.setDma_fb (s : State) (v : Dma) : (s.setDma v).fb = s.fb := rfl
@[simp] theorem State.setDma_dot (s : State) (v : Dma) : (s.setDma v).dot = s.dot := rfl
@[simp] theorem State.setDma_line (s : State) (v : Dma) : (s.setDma v).line = s.line := rfl
@[simp] theorem State.setDma_ipend (s : State) (v : Dma) : (s.setDma v).ipend = s.ipend := rfl
@[simp] theorem State.setDma_hitcol (s : State) (v : Dma) : (s.setDma v).hitcol = s.hitcol := rfl
@[simp] theorem State.setDma_clk (s : State) (v : Dma) : (s.setDma v).clk = s.clk := rfl
@[simp] theorem State.setDma_dma (s : State) (v : Dma) : (s.setDma v).dma = v := rfl
@[simp] theorem State.setDma_nmiprev (s : State) (v : Dma) : (s.setDma v).nmiprev = s.nmiprev := rfl
@[simp] theorem State.setDma_totdots (s : State) (v : Dma) : (s.setDma v).totdots = s.totdots := rfl
@[simp] theorem State.setDma_lastrep (s : State) (v : Dma) : (s.setDma v).lastrep = s.lastrep := rfl
@[simp] theorem State.setDma_fault (s : State) (v : Dma) : (s.setDma v).fault = s.fault := rfl
@[simp] theorem State.setDma_cpu (s : State) (v : Dma) : (s.setDma v).cpu = s.cpu := rfl
@[simp] theorem State.setDma_cart (s : State) (v : Dma) : (s.setDma v).cart = s.cart := rfl
@[simp] theorem State.setDma_params (s : State) (v : Dma) : (s.setDma v).params = s.params := rfl
@[simp] theorem State.setDma_script (s : State) (v : Dma) : (s.setDma v).script = s.script := rfl
@[simp] theorem State.setDma_resp (s : State) (v : Dma) : (s.setDma v).resp = s.resp := rfl
@[simp] theorem State.setDma_draws (s : State) (v : Dma) : (s.setDma v).draws = s.draws := rfl

@[simp] theorem State.setNmiprev_ctrl (s : State) (v : Bool) : (s.setNmiprev v).ctrl = s.ctrl := rfl
@[simp] theorem State.setNmiprev_mask (s : State) (v : Bool) : (s.setNmiprev v).mask = s.mask := rfl
@[simp] theorem State.setNmiprev_status (s : State) (v : Bool) : (s.setNmiprev v).status = s.status := rfl
@[simp] theorem State.setNmiprev_scrollX (s : State) (v : Bool) : (s.setNmiprev v).scrollX = s.scrollX := rfl
@[simp] theorem State.setNmiprev_scrollY (s : State) (v : Bool) : (s.setNmiprev v).scrollY = s.scrollY := rfl
@[simp] theorem State.setNmiprev_vaddr (s : State) (v : Bool) : (s.setNmiprev v).vaddr = s.vaddr := rfl
@[simp] theorem State.setNmiprev_vtog (s : State) (v : Bool) : (s.setNmiprev v).vtog = s.vtog := rfl
@[simp] theorem State.setNmiprev_oamaddr (s : State) (v : Bool) : (s.setNmiprev v).oamaddr = s.oamaddr := rfl
@[simp] theorem State.setNmiprev_oam (s : State) (v : Bool) : (s.setNmiprev v).oam = s.oam := rfl
@[simp] theorem State.setNmiprev_pal (s : State) (v : Bool) : (s.setNmiprev v).pal = s.pal := rfl
@[simp] theorem State.setNmiprev_scan (s : State) (v : Bool) : (s.setNmiprev v).scan = s.scan := rfl
@[simp] theorem State.setNmiprev_fb (s : State) (v : Bool) : (s.setNmiprev v).fb = s.fb := rfl
@[simp] theorem State.setNmiprev_dot (s : State) (v : Bool) : (s.setNmiprev v).dot = s.dot := rfl
@[simp] theorem State.setNmiprev_line (s : State) (v : Bool) : (s.setNmiprev v).line = s.line := rfl
@[simp] theorem State.setNmiprev_ipend (s : State) (v : Bool) : (s.setNmiprev v).ipend = s.ipend := rfl
@[simp] theorem State.setNmiprev_hitcol (s : State) (v : Bool) : (s.setNmiprev v).hitcol = s.hitcol := rfl
@[simp] theorem State.setNmiprev_clk (s : State) (v : Bool) : (s.setNmiprev v).clk = s.clk := rfl
@[simp] theorem State.setNmiprev_dma (s : State) (v : Bool) : (s.setNmiprev v).dma = s.dma := rfl
@[simp] theorem State.setNmiprev_nmiprev (s : State) (v : Bool) : (s.setNmiprev v).nmiprev = v := rfl
@[simp] theorem State.setNmiprev_totdots (s : State) (v : Bool) : (s.setNmiprev v).totdots = s.totdots := rfl
@[simp] theorem State.setNmiprev_lastrep (s : State) (v : Bool) : (s.setNmiprev v).lastrep = s.lastrep := rfl
@[simp] theorem State.setNmiprev_fault (s : State) (v : Bool) : (s.setNmiprev v).fault = s.fault := rfl
@[simp] theorem State.setNmiprev_cpu (s : State) (v : Bool) : (s.setNmiprev v).cpu = s.cpu := rfl
@[simp] theorem State.setNmiprev_cart (s : State) (v : Bool) : (s.setNmiprev v).cart = s.cart := rfl
@[simp] theorem State.setNmiprev_params (s : State) (v : Bool) : (s.setNmiprev v).params = s.params := rfl
@[simp] theorem State.setNmiprev_script (s : State) (v : Bool) : (s.setNmiprev v).script = s.script := rfl
@[simp] theorem State.setNmiprev_resp (s : State) (v : Bool) : (s.setNmiprev v).resp = s.resp := rfl
@[simp] theorem State.setNmiprev_draws (s : State) (v : Bool) : (s.setNmiprev v).draws = s.draws := rfl

@[simp] theorem State.setTotdots_ctrl (s : State) (v : Nat) : (s.setTotdots v).ctrl = s.ctrl := rfl
@[simp] theorem State.setTotdots_mask (s : State) (v : Nat) : (s.setTotdots v).mask = s.mask := rfl
@[simp] theorem State.setTotdots_status (s : State) (v : Nat) : (s.setTotdots v).status = s.status := rfl
@[simp] theorem State.setTotdots_scrollX (s : State) (v : Nat) : (s.setTotdots v).scrollX = s.scrollX := rfl
@[simp] theorem State.setTotdots_scrollY (s : State) (v : Nat) : (s.setTotdots v).scrollY = s.scrollY := rfl
@[simp] theorem State.setTotdots_vaddr (s : State) (v : Nat) : (s.setTotdots v).vaddr = s.vaddr := rfl
@[simp] theorem State.setTotdots_vtog (s : State) (v : Nat) : (s.setTotdots v).vtog = s.vtog := rfl
@[simp] theorem State.setTotdots_oamaddr (s : State) (v : Nat) : (s.setTotdots v).oamaddr = s.oamaddr := rfl
@[simp] theorem State.setTotdots_oam (s : State) (v : Nat) : (s.setTotdots v).oam = s.oam := rfl
@[simp] theorem State.setTotdots_pal (s : State) (v : Nat) : (s.setTotdots v).pal = s.pal := rfl
@[simp] theorem State.setTotdots_scan (s : State) (v : Nat) : (s.setTotdots v).scan = s.scan := rfl
@[simp] theorem State.setTotdots_fb (s : State) (v : Nat) : (s.setTotdots v).fb = s.fb := rfl
@[simp] theorem State.setTotdots_dot (s : State) (v : Nat) : (s.setTotdots v).dot = s.dot := rfl
@[simp] theorem State.setTotdots_line (s : State) (v : Nat) : (s.setTotdots v).line = s.line := rfl
@[simp] theorem State.setTotdots_ipend (s : State) (v : Nat) : (s.setTotdots v).ipend = s.ipend := rfl
@[simp] theorem State.setTotdots_hitcol (s : State) (v : Nat) : (s.setTotdots v).hitcol = s.hitcol := rfl
@[simp] theorem State.setTotdots_clk (s : State) (v : Nat) : (s.setTotdots v).clk = s.clk := rfl
@[simp] theorem State.setTotdots_dma (s : State) (v : Nat) : (s.setTotdots v).dma = s.dma := rfl
@[simp] theorem State.setTotdots_nmiprev (s : State) (v : Nat) : (s.setTotdots v).nmiprev = s.nmiprev := rfl
@[simp] theorem State.setTotdots_totdots (s : State) (v : Nat) : (s.setTotdots v).totdots = v := rfl
@[simp] theorem State.setTotdots_lastrep (s : State) (v : Nat) : (s.setTotdots v).lastrep = s.lastrep := rfl
@[simp] theorem State.setTotdots_fault (s : State) (v : Nat) : (s.setTotdots v).fault = s.fault := rfl
@[simp] theorem State.setTotdots_cpu (s : State) (v : Nat) : (s.setTotdots v).cpu = s.cpu := rfl
@[simp] theorem State.setTotdots_cart (s : State) (v : Nat) : (s.setTotdots v).cart = s.cart := rfl
@[simp] theorem State.setTotdots_params (s : State) (v : Nat) : (s.setTotdots v).params = s.params := rfl
@[simp] theorem State.setTotdots_script (s : State) (v : Nat) : (s.setTotdots v).script = s.script := rfl
@[simp] theorem State.setTotdots_resp (s : State) (v : Nat) : (s.setTotdots v).resp = s.resp := rfl
@[simp] theorem State.setTotdots_draws (s : State) (v : Nat) : (s.setTotdots v).draws = s.draws := rfl

@[simp] theorem State.setLastrep_ctrl (s : State) (v : Nat) : (s.setLastrep v).ctrl = s.ctrl := rfl
@[simp] theorem State.setLastrep_mask (s : State) (v : Nat) : (s.setLastrep v).mask = s.mask := rfl
@[simp] theorem State.setLastrep_status (s : State) (v : Nat) : (s.setLastrep v).status = s.status := rfl
@[simp] theorem State.setLastrep_scrollX (s : State) (v : Nat) : (s.setLastrep v).scrollX = s.scrollX := rfl
@[simp] theorem State.setLastrep_scrollY (s : State) (v : Nat) : (s.setLastrep v).scrollY = s.scrollY := rfl
@[simp] theorem State.setLastrep_vaddr (s : State) (v : Nat) : (s.setLastrep v).vaddr = s.vaddr := rfl
@[simp] theorem State.setLastrep_vtog (s : State) (v : Nat) : (s.setLastrep v).vtog = s.vtog := rfl
@[simp] theorem State.setLastrep_oamaddr (s : State) (v : Nat) : (s.setLastrep v).oamaddr = s.oamaddr := rfl
@[simp] theorem State.setLastrep_oam (s : State) (v : Nat) : (s.setLastrep v).oam = s.oam := rfl
@[simp] theorem State.setLastrep_pal (s : State) (v : Nat) : (s.setLastrep v).pal = s.pal := rfl
@[simp] theorem State.setLastrep_scan (s : State) (v : Nat) : (s.setLastrep v).scan = s.scan := rfl
@[simp] theorem State.setLastrep_fb (s : State) (v : Nat) : (s.setLastrep v).fb = s.fb := rfl
@[simp] theorem State.setLastrep_dot (s : State) (v : Nat) : (s.setLastrep v).dot = s.dot := rfl
@[simp] theorem State.setLastrep_line (s : State) (v : Nat) : (s.setLastrep v).line = s.line := rfl
@[simp] theorem State.setLastrep_ipend (s : State) (v : Nat) : (s.setLastrep v).ipend = s.ipend := rfl
@[simp] theorem State.setLastrep_hitcol (s : State) (v : Nat) : (s.setLastrep v).hitcol = s.hitcol := rfl
@[simp] theorem State.setLastrep_clk (s : State) (v : Nat) : (s.setLastrep v).clk = s.clk := rfl
@[simp] theorem State.setLastrep_dma (s : State) (v : Nat) : (s.setLastrep v).dma = s.dma := rfl
@[simp] theorem State.setLastrep_nmiprev (s : State) (v : Nat) : (s.setLastrep v).nmiprev = s.nmiprev := rfl
@[simp] theorem State.setLastrep_totdots (s : State) (v : Nat) : (s.setLastrep v).totdots = s.totdots := rfl
@[simp] theorem State.setLastrep_lastrep (s : State) (v : Nat) : (s.setLastrep v).lastrep = v := rfl
@[simp] theorem State.setLastrep_fault (s : State) (v : Nat) : (s.setLastrep v).fault = s.fault := rfl
@[simp] theorem State.setLastrep_cpu (s : State) (v : Nat) : (s.setLastrep v).cpu = s.cpu := rfl
@[simp] theorem State.setLastrep_cart (s : State) (v : Nat) : (s.setLastrep v).cart = s.cart := rfl
@[simp] theorem State.setLastrep_params (s : State) (v : Nat) : (s.setLastrep v).params = s.params := rfl
@[simp] theorem State.setLastrep_script (s : State) (v : Nat) : (s.setLastrep v).script = s.script := rfl
@[simp] theorem State.setLastrep_resp (s : State) (v : Nat) : (s.setLastrep v).resp = s.resp := rfl
@[simp] theorem State.setLastrep_draws (s : State) (v : Nat) : (s.setLastrep v).draws = s.draws := rfl

@[simp] theorem State.setFault_ctrl (s : State) (v : Option Fault) : (s.setFault v).ctrl = s.ctrl := rfl
@[simp] theorem State.setFault_mask (s : State) (v : Option Fault) : (s.setFault v).mask = s.mask := rfl
@[simp] theorem State.setFault_status (s : State) (v : Option Fault) : (s.setFault v).status = s.status := rfl
@[simp] theorem State.setFault_scrollX (s : State) (v : Option Fault) : (s.setFault v).scrollX = s.scrollX := rfl
@[simp] theorem State.setFault_scrollY (s : State) (v : Option Fault) : (s.setFault v).scrollY = s.scrollY := rfl
@[simp] theorem State.setFault_vaddr (s : State) (v : Option Fault) : (s.setFault v).vaddr = s.vaddr := rfl
@[simp] theorem State.setFault_vtog (s : State) (v : Option Fault) : (s.setFault v).vtog = s.vtog := rfl
@[simp] theorem State.setFault_oamaddr (s : State) (v : Option Fault) : (s.setFault v).oamaddr = s.oamaddr := rfl
@[simp] theorem State.setFault_oam (s : State) (v : Option Fault) : (s.setFault v).oam = s.oam := rfl
@[simp] theorem State.setFault_pal (s : State) (v : Option Fault) : (s.setFault v).pal = s.pal := rfl
@[simp] theorem State.setFault_scan (s : State) (v : Option Fault) : (s.setFault v).scan = s.scan := rfl
@[simp] theorem State.setFault_fb (s : State) (v : Option Fault) : (s.setFault v).fb = s.fb := rfl
@[simp] theorem State.setFault_dot (s : State) (v : Option Fault) : (s.setFault v).dot = s.dot := rfl
@[simp] theorem State.setFault_line (s : State) (v : Option Fault) : (s.setFault v).line = s.line := rfl
@[simp] theorem State.setFault_ipend (s : State) (v : Option Fault) : (s.setFault v).ipend = s.ipend := rfl
@[simp] theorem State.setFault_hitcol (s : State) (v : Option Fault) : (s.setFault v).hitcol = s.hitcol := rfl
@[simp] theorem State.setFault_clk (s : State) (v : Option Fault) : (s.setFault v).clk = s.clk := rfl
@[simp] theorem State.setFault_dma (s : State) (v : Option Fault) : (s.setFault v).dma = s.dma := rfl
@[simp] theorem State.setFault_nmiprev (s : State) (v : Option Fault) : (s.setFault v).nmiprev = s.nmiprev := rfl
@[simp] theorem State.setFault_totdots (s : State) (v : Option Fault) : (s.setFault v).totdots = s.totdots := rfl
@[simp] theorem State.setFault_lastrep (s : State) (v : Option Fault) : (s.setFault v).lastrep = s.lastrep := rfl
@[simp] theorem State.setFault_fault (s : State) (v : Option Fault) : (s.setFault v).fault = v := rfl
@[simp] theorem State.setFault_cpu (s : State) (v : Option Fault) : (s.setFault v).cpu = s.cpu := rfl
@[simp] theorem State.setFault_cart (s : State) (v : Option Fault) : (s.setFault v).cart = s.cart := rfl
@[simp] theorem State.setFault_params (s : State) (v : Option Fault) : (s.setFault v).params = s.params := rfl
@[simp] theorem State.setFault_script (s : State) (v : Option Fault) : (s.setFault v).script = s.script := rfl
@[simp] theorem State.setFault_resp (s : State) (v : Option Fault) : (s.setFault v).resp = s.resp := rfl
@[simp] theorem State.setFault_draws (s : State) (v : Option Fault) : (s.setFault v).draws = s.draws := rfl

@[simp] theorem State.setCpu_ctrl (s : State) (v : CpuState) : (s.setCpu v).ctrl = s.ctrl := rfl
@[simp] theorem State.setCpu_mask (s : State) (v : CpuState) : (s.setCpu v).mask = s.mask := rfl
@[simp] theorem State.setCpu_status (s : State) (v : CpuState) : (s.setCpu v).status = s.status := rfl
@[simp] theorem State.setCpu_scrollX (s : State) (v : CpuState) : (s.setCpu v).scrollX = s.scrollX := rfl
@[simp] theorem State.setCpu_scrollY (s : State) (v : CpuState) : (s.setCpu v).scrollY = s.scrollY := rfl
@[simp] theorem State.setCpu_vaddr (s : State) (v : CpuState) : (s.setCpu v).vaddr = s.vaddr := rfl
@[simp] theorem State.setCpu_vtog (s : State) (v : CpuState) : (s.setCpu v).vtog = s.vtog := rfl
@[simp] theorem State.setCpu_oamaddr (s : State) (v : CpuState) : (s.setCpu v).oamaddr = s.oamaddr := rfl
@[simp] theorem State.setCpu_oam (s : State) (v : CpuState) : (s.setCpu v).oam = s.oam := rfl
@[simp] theorem State.setCpu_pal (s : State) (v : CpuState) : (s.setCpu v).pal = s.pal := rfl
@[simp] theorem State.setCpu_scan (s : State) (v : CpuState) : (s.setCpu v).scan = s.scan := rfl
@[simp] theorem State.setCpu_fb (s : State) (v : CpuState) : (s.setCpu v).fb = s.fb := rfl
@[simp] theorem State.setCpu_dot (s : State) (v : CpuState) : (s.setCpu v).dot = s.dot := rfl
@[simp] theorem State.setCpu_line (s : State) (v : CpuState) : (s.setCpu v).line = s.line := rfl
@[simp] theorem State.setCpu_ipend (s : State) (v : CpuState) : (s.setCpu v).ipend = s.ipend := rfl
@[simp] theorem State.setCpu_hitcol (s : State) (v : CpuState) : (s.setCpu v).hitcol = s.hitcol := rfl
@[simp] theorem State.setCpu_clk (s : State) (v : CpuState) : (s.setCpu v).clk = s.clk := rfl
@[simp] theorem State.setCpu_dma (s : State) (v : CpuState) : (s.setCpu v).dma = s.dma := rfl
@[simp] theorem State.setCpu_nmiprev (s : State) (v : CpuState) : (s.setCpu v).nmiprev = s.nmiprev := rfl
@[simp] theorem State.setCpu_totdots (s : State) (v : CpuState) : (s.setCpu v).totdots = s.totdots := rfl
@[simp] theorem State.setCpu_lastrep (s : State) (v : CpuState) : (s.setCpu v).lastrep = s.lastrep := rfl
@[simp] theorem State.setCpu_fault (s : State) (v : CpuState) : (s.setCpu v).fault = s.fault := rfl
@[simp] theorem State.setCpu_cpu (s : State) (v : CpuState) : (s.setCpu v).cpu = v := rfl
@[simp] theorem State.setCpu_cart (s : State) (v : CpuState) : (s.setCpu v).cart = s.cart := rfl
@[simp] theorem State.setCpu_params (s : State) (v : CpuState) : (s.setCpu v).params = s.params := rfl
@[simp] theorem State.setCpu_script (s : State) (v : CpuState) : (s.setCpu v).script = s.script := rfl
@[simp] theorem State.setCpu_resp (s : State) (v : CpuState) : (s.setCpu v).resp = s.resp := rfl
@[simp] theorem State.setCpu_draws (s : State) (v : CpuState) : (s.setCpu v).draws = s.draws := rfl

@[simp] theorem State.setCart_ctrl (s : State) (v : CartState) : (s.setCart v).ctrl = s.ctrl := rfl
@[simp] theorem State.setCart_mask (s : State) (v : CartState) : (s.setCart v).mask = s.mask := rfl
@[simp] theorem State.setCart_status (s : State) (v : CartState) : (s.setCart v).status = s.status := rfl
@[simp] theorem State.setCart_scrollX (s : State) (v : CartState) : (s.setCart v).scrollX = s.scrollX := rfl
@[simp] theorem State.setCart_scrollY (s : State) (v : CartState) : (s.setCart v).scrollY = s.scrollY := rfl
@[simp] theorem State.setCart_vaddr (s : State) (v : CartState) : (s.setCart v).vaddr = s.vaddr := rfl
@[simp] theorem State.setCart_vtog (s : State) (v : CartState) : (s.setCart v).vtog = s.vtog := rfl
@[simp] theorem State.setCart_oamaddr (s : State) (v : CartState) : (s.setCart v).oamaddr = s.oamaddr := rfl
@[simp] theorem State.setCart_oam (s : State) (v : CartState) : (s.setCart v).oam = s.oam := rfl
@[simp] theorem State.setCart_pal (s : State) (v : CartState) : (s.setCart v).pal = s.pal := rfl
@[simp] theorem State.setCart_scan (s : State) (v : CartState) : (s.setCart v).scan = s.scan := rfl
@[simp] theorem State.setCart_fb (s : State) (v : CartState) : (s.setCart v).fb = s.fb := rfl
@[simp] theorem State.setCart_dot (s : State) (v : CartState) : (s.setCart v).dot = s.dot := rfl
@[simp] theorem State.setCart_line (s : State) (v : CartState) : (s.setCart v).line = s.line := rfl
@[simp] theorem State.setCart_ipend (s : State) (v : CartState) : (s.setCart v).ipend = s.ipend := rfl
@[simp] theorem State.setCart_hitcol (s : State) (v : CartState) : (s.setCart v).hitcol = s.hitcol := rfl
@[simp] theorem State.setCart_clk (s : State) (v : CartState) : (s.setCart v).clk = s.clk := rfl
@[simp] theorem State.setCart_dma (s : State) (v : CartState) : (s.setCart v).dma = s.dma := rfl
@[simp] theorem State.setCart_nmiprev (s : State) (v : CartState) : (s.setCart v).nmiprev = s.nmiprev := rfl
@[simp] theorem State.setCart_totdots (s : State) (v : CartState) : (s.setCart v).totdots = s.totdots := rfl
@[simp] theorem State.setCart_lastrep (s : State) (v : CartState) : (s.setCart v).lastrep = s.lastrep := rfl
@[simp] theorem State.setCart_fault (s : State) (v : CartState) : (s.setCart v).fault = s.fault := rfl
@[simp] theorem State.setCart_cpu (s : State) (v : CartState) : (s.setCart v).cpu = s.cpu := rfl
@[simp] theorem State.setCart_cart (s : State) (v : CartState) : (s.setCart v).cart = v := rfl
@[simp] theorem State.setCart_params (s : State) (v : CartState) : (s.setCart v).params = s.params := rfl
@[simp] theorem State.setCart_script (s : State) (v : CartState) : (s.setCart v).script = s.script := rfl
@[simp] theorem State.setCart_resp (s : State) (v : CartState) : (s.setCart v).resp = s.resp := rfl
@[simp] theorem State.setCart_draws (s : State) (v : CartState) : (s.setCart v).draws = s.draws := rfl

@[simp] theorem State.setScript_ctrl (s : State) (v : List TWord) : (s.setScript v).ctrl = s.ctrl := rfl
@[simp] theorem State.setScript_mask (s : State) (v : List TWord) : (s.setScript v).mask = s.mask := rfl
@[simp] theorem State.setScript_status (s : State) (v : List TWord) : (s.setScript v).status = s.status := rfl
@[simp] theorem State.setScript_scrollX (s : State) (v : List TWord) : (s.setScript v).scrollX = s.scrollX := rfl
@[simp] theorem State.setScript_scrollY (s : State) (v : List TWord) : (s.setScript v).scrollY = s.scrollY := rfl
@[simp] theorem State.setScript_vaddr (s : State) (v : List TWord) : (s.setScript v).vaddr = s.vaddr := rfl
@[simp] theorem State.setScript_vtog (s : State) (v : List TWord) : (s.setScript v).vtog = s.vtog := rfl
@[simp] theorem State.setScript_oamaddr (s : State) (v : List TWord) : (s.setScript v).oamaddr = s.oamaddr := rfl
@[simp] theorem State.setScript_oam (s : State) (v : List TWord) : (s.setScript v).oam = s.oam := rfl
@[simp] theorem State.setScript_pal (s : State) (v : List TWord) : (s.setScript v).pal = s.pal := rfl
@[simp] theorem State.setScript_scan (s : State) (v : List TWord) : (s.setScript v).scan = s.scan := rfl
@[simp] theorem State.setScript_fb (s : State) (v : List TWord) : (s.setScript v).fb = s.fb := rfl
@[simp] theorem State.setScript_dot (s : State) (v : List TWord) : (s.setScript v).dot = s.dot := rfl
@[simp] theorem State.setScript_line (s : State) (v : List TWord) : (s.setScript v).line = s.line := rfl
@[simp] theorem State.setScript_ipend (s : State) (v : List TWord) : (s.setScript v).ipend = s.ipend := rfl
@[simp] theorem State.setScript_hitcol (s : State) (v : List TWord) : (s.setScript v).hitcol = s.hitcol := rfl
@[simp] theorem State.setScript_clk (s : State) (v : List TWord) : (s.setScript v).clk = s.clk := rfl
@[simp] theorem State.setScript_dma (s : State) (v : List TWord) : (s.setScript v).dma = s.dma := rfl
@[simp] theorem State.setScript_nmiprev (s : State) (v : List TWord) : (s.setScript v).nmiprev = s.nmiprev := rfl
@[simp] theorem State.setScript_totdots (s : State) (v : List TWord) : (s.setScript v).totdots = s.totdots := rfl
@[simp] theorem State.setScript_lastrep (s : State) (v : List TWord) : (s.setScript v).lastrep = s.lastrep := rfl
@[simp] theorem State.setScript_fault (s : State) (v : List TWord) : (s.setScript v).fault = s.fault := rfl
@[simp] theorem State.setScript_cpu (s : State) (v : List TWord) : (s.setScript v).cpu = s.cpu := rfl
@[simp] theorem State.setScript_cart (s : State) (v : List TWord) : (s.setScript v).cart = s.cart := rfl
@[simp] theorem State.setScript_params (s : State) (v : List TWord) : (s.setScript v).params = s.params := rfl
@[simp] theorem State.setScript_script (s : State) (v : List TWord) : (s.setScript v).script = v := rfl
@[simp] theorem State.setScript_resp (s : State) (v : List TWord) : (s.setScript v).resp = s.resp := rfl
@[simp] theorem State.setScript_draws (s : State) (v : List TWord) : (s.setScript v).draws = s.draws := rfl

@[simp] theorem State.setResp_ctrl (s : State) (v : Response) : (s.setResp v).ctrl = s.ctrl := rfl
@[simp] theorem State.setResp_mask (s : State) (v : Response) : (s.setResp v).mask = s.mask := rfl
@[simp] theorem State.setResp_status (s : State) (v : Response) : (s.setResp v).status = s.status := rfl
@[simp] theorem State.setResp_scrollX (s : State) (v : Response) : (s.setResp v).scrollX = s.scrollX := rfl
@[simp] theorem State.setResp_scrollY (s : State) (v : Response) : (s.setResp v).scrollY = s.scrollY := rfl
@[simp] theorem State.setResp_vaddr (s : State) (v : Response) : (s.setResp v).vaddr = s.vaddr := rfl
@[simp] theorem State.setResp_vtog (s : State) (v : Response) : (s.setResp v).vtog = s.vtog := rfl
@[simp] theorem State.setResp_oamaddr (s : State) (v : Response) : (s.setResp v).oamaddr = s.oamaddr := rfl
@[simp] theorem State.setResp_oam (s : State) (v : Response) : (s.setResp v).oam = s.oam := rfl
@[simp] theorem State.setResp_pal (s : State) (v : Response) : (s.setResp v).pal = s.pal := rfl
@[simp] theorem State.setResp_scan (s : State) (v : Response) : (s.setResp v).scan = s.scan := rfl
@[simp] theorem State.setResp_fb (s : State) (v : Response) : (s.setResp v).fb = s.fb := rfl
@[simp] theorem State.setResp_dot (s : State) (v : Response) : (s.setResp v).dot = s.dot := rfl
@[simp] theorem State.setResp_line (s : State) (v : Response) : (s.setResp v).line = s.line := rfl
@[simp] theorem State.setResp_ipend (s : State) (v : Response) : (s.setResp v).ipend = s.ipend := rfl
@[simp] theorem State.setResp_hitcol (s : State) (v : Response) : (s.setResp v).hitcol = s.hitcol := rfl
@[simp] theorem State.setResp_clk (s : State) (v : Response) : (s.setResp v).clk = s.clk := rfl
@[simp] theorem State.setResp_dma (s : State) (v : Response) : (s.setResp v).dma = s.dma := rfl
@[simp] theorem State.setResp_nmiprev (s : State) (v : Response) : (s.setResp v).nmiprev = s.nmiprev := rfl
@[simp] theorem State.setResp_totdots (s : State) (v : Response) : (s.setResp v).totdots = s.totdots := rfl
@[simp] theorem State.setResp_lastrep (s : State) (v : Response) : (s.setResp v).lastrep = s.lastrep := rfl
@[simp] theorem State.setResp_fault (s : State) (v : Response) : (s.setResp v).fault = s.fault := rfl
@[simp] theorem State.setResp_cpu (s : State) (v : Response) : (s.setResp v).cpu = s.cpu := rfl
@[simp] theorem State.setResp_cart (s : State) (v : Response) : (s.setResp v).cart = s.cart := rfl
@[simp] theorem State.setResp_params (s : State) (v : Response) : (s.setResp v).params = s.params := rfl
@[simp] theorem State.setResp_script (s : State) (v : Response) : (s.setResp v).script = s.script := rfl
@[simp] theorem State.setResp_resp (s : State) (v : Response) : (s.setResp v).resp = v := rfl
@[simp] theorem State.setResp_draws (s : State) (v : Response) : (s.setResp v).draws = s.draws := rfl

@[simp] theorem State.setDraws_ctrl (s : State) (v : Nat) : (s.setDraws v).ctrl = s.ctrl := rfl
@[simp] theorem State.setDraws_mask (s : State) (v : Nat) : (s.setDraws v).mask = s.mask := rfl
@[simp] theorem State.setDraws_status (s : State) (v : Nat) : (s.setDraws v).status = s.status := rfl
@[simp] theorem State.setDraws_scrollX (s : State) (v : Nat) : (s.setDraws v).scrollX = s.scrollX := rfl
@[simp] theorem State.setDraws_scrollY (s : State) (v : Nat) : (s.setDraws v).scrollY = s.scrollY := rfl
@[simp] theorem State.setDraws_vaddr (s : State) (v : Nat) : (s.setDraws v).vaddr = s.vaddr := rfl
@[simp] theorem State.setDraws_vtog (s : State) (v : Nat) : (s.setDraws v).vtog = s.vtog := rfl
@[simp] theorem State.setDraws_oamaddr (s : State) (v : Nat) : (s.setDraws v).oamaddr = s.oamaddr := rfl
@[simp] theorem State.setDraws_oam (s : State) (v : Nat) : (s.setDraws v).oam = s.oam := rfl
@[simp] theorem State.setDraws_pal (s : State) (v : Nat) : (s.setDraws v).pal = s.pal := rfl
@[simp] theorem State.setDraws_scan (s : State) (v : Nat) : (s.setDraws v).scan = s.scan := rfl
@[simp] theorem State.setDraws_fb (s : State) (v : Nat) : (s.setDraws v).fb = s.fb := rfl
@[simp] theorem State.setDraws_dot (s : State) (v : Nat) : (s.setDraws v).dot = s.dot := rfl
@[simp] theorem State.setDraws_line (s : State) (v : Nat) : (s.setDraws v).line = s.line := rfl
@[simp] theorem State.setDraws_ipend (s : State) (v : Nat) : (s.setDraws v).ipend = s.ipend := rfl
@[simp] theorem State.setDraws_hitcol (s : State) (v : Nat) : (s.setDraws v).hitcol = s.hitcol := rfl
@[simp] theorem State.setDraws_clk (s : State) (v : Nat) : (s.setDraws v).clk = s.clk := rfl
@[simp] theorem State.setDraws_dma (s : State) (v : Nat) : (s.setDraws v).dma = s.dma := rfl
@[simp] theorem State.setDraws_nmiprev (s : State) (v : Nat) : (s.setDraws v).nmiprev = s.nmiprev := rfl
@[simp] theorem State.setDraws_totdots (s : State) (v : Nat) : (s.setDraws v).totdots = s.totdots := rfl
@[simp] theorem State.setDraws_lastrep (s : State) (v : Nat) : (s.setDraws v).lastrep = s.lastrep := rfl
@[simp] theorem State.setDraws_fault (s : State) (v : Nat) : (s.setDraws v).fault = s.fault := rfl
@[simp] theorem State.setDraws_cpu (s : State) (v : Nat) : (s.setDraws v).cpu = s.cpu := rfl
@[simp] theorem State.setDraws_cart (s : State) (v : Nat) : (s.setDraws v).cart = s.cart := rfl
@[simp] theorem State.setDraws_params (s : State) (v : Nat) : (s.setDraws v).params = s.params := rfl
@[simp] theorem State.setDraws_script (s : State) (v : Nat) : (s.setDraws v).script = s.script := rfl
@[simp] theorem State.setDraws_resp (s : State) (v : Nat) : (s.setDraws v).resp = s.resp := rfl
@[simp] theorem State.setDraws_draws (s : State) (v : Nat) : (s.setDraws v).draws = v := rfl

end Sys2Proof.Machine
end

