-- ==== Sys2Proof/Laws/Stores.lean ====
section
/-! SUPPORT. Reading after writing a store, and the canonical form, which every store operation keeps. -/

namespace Sys2Proof.Machine

variable {α : Type}

theorem cellLookup_insert (m : Memory α) (a b : Nat) (v : α) :
    cellLookup (cellInsert m a v) b = if b = a then some v else cellLookup m b := by
  induction m with
  | nil => simp only [cellInsert, cellLookup, eq_comm (a := a)]
  | cons c rest ih =>
    obtain ⟨k, w⟩ := c
    simp only [cellInsert]
    split
    · simp only [cellLookup, eq_comm (a := a)]
    · split
      · subst k; simp only [cellLookup, eq_comm (a := a)]; split <;> rfl
      · simp only [cellLookup, ih]
        by_cases hk : k = b
        · subst hk; simp [*]
        · simp [hk]

theorem cellLookup_erase (m : Memory α) (a b : Nat) :
    cellLookup (cellErase m a) b = if b = a then none else cellLookup m b := by
  induction m with
  | nil => simp [cellErase, cellLookup]
  | cons c rest ih =>
    obtain ⟨k, w⟩ := c
    simp only [cellErase, cellLookup]
    split
    · subst k; rw [ih]
      by_cases hb : b = a
      · simp [hb]
      · simp [hb, Ne.symm hb]
    · by_cases hk : k = b
      · subst hk; simp [cellLookup, *]
      · simp [cellLookup, hk, ih]

/-- A read after a write: the value written where it was written, the old value elsewhere. -/
@[simp] theorem cellRead_write [DecidableEq α] (d : α) (m : Memory α) (a b : Nat) (v : α) :
    cellRead d (cellWrite d m a v) b = if b = a then v else cellRead d m b := by
  unfold cellRead cellWrite
  by_cases hv : v = d
  · subst hv; by_cases hb : b = a <;> simp [cellLookup_erase, hb]
  · by_cases hb : b = a <;> simp [cellLookup_insert, hv, hb]

theorem mem_cellInsert {m : Memory α} {a : Nat} {v : α} {c : Nat × α}
    (h : c ∈ cellInsert m a v) : c = (a, v) ∨ c ∈ m := by
  induction m with
  | nil => exact .inl (List.mem_singleton.1 h)
  | cons c' rest ih =>
    obtain ⟨k, w⟩ := c'
    simp only [cellInsert] at h
    split at h
    · simpa using h
    · split at h
      · simp only [List.mem_cons] at h ⊢; tauto
      · simp only [List.mem_cons] at h ⊢
        rcases h with h | h
        · tauto
        · rcases ih h with h | h <;> tauto

theorem mem_cellErase {m : Memory α} {a : Nat} {c : Nat × α} (h : c ∈ cellErase m a) : c ∈ m := by
  induction m with
  | nil => exact h
  | cons c' rest ih =>
    obtain ⟨k, w⟩ := c'
    simp only [cellErase] at h
    split at h
    · exact List.mem_cons_of_mem _ (ih h)
    · rcases List.mem_cons.1 h with h | h
      · simp [h]
      · exact List.mem_cons_of_mem _ (ih h)

theorem cellInsert_rises {m : Memory α} (h : m.Pairwise (fun c c' => c.1 < c'.1)) (a : Nat) (v : α) :
    (cellInsert m a v).Pairwise (fun c c' => c.1 < c'.1) := by
  induction m with
  | nil => simp [cellInsert]
  | cons c rest ih =>
    obtain ⟨k, w⟩ := c
    rw [List.pairwise_cons] at h
    simp only [cellInsert]
    split
    · rename_i hak
      simp only [List.pairwise_cons, List.mem_cons, forall_eq_or_imp]
      exact ⟨⟨hak, fun c hc => hak.trans (h.1 c hc)⟩, h⟩
    · split
      · subst k; exact List.pairwise_cons.2 h
      · refine List.pairwise_cons.2 ⟨fun c hc => ?_, ih h.2⟩
        rcases mem_cellInsert hc with rfl | hc
        · simp only; omega
        · exact h.1 c hc

theorem cellErase_rises {m : Memory α} (h : m.Pairwise (fun c c' => c.1 < c'.1)) (a : Nat) :
    (cellErase m a).Pairwise (fun c c' => c.1 < c'.1) := by
  induction m with
  | nil => simp [cellErase]
  | cons c rest ih =>
    obtain ⟨k, w⟩ := c
    rw [List.pairwise_cons] at h
    simp only [cellErase]
    split
    · exact ih h.2
    · exact List.pairwise_cons.2 ⟨fun c hc => h.1 c (mem_cellErase hc), ih h.2⟩

/-- A write keeps the canonical form. -/
theorem cellWrite_wf [DecidableEq α] {d : α} {bound : Nat} {m : Memory α} (h : Memory.wf d bound m)
    {a : Nat} (ha : a < bound) (v : α) : Memory.wf d bound (cellWrite d m a v) := by
  unfold cellWrite
  split
  · exact ⟨cellErase_rises h.1 a, fun c hc => h.2 c (mem_cellErase hc)⟩
  · refine ⟨cellInsert_rises h.1 a v, fun c hc => ?_⟩
    rcases mem_cellInsert hc with rfl | hc
    · exact ⟨ha, by assumption⟩
    · exact h.2 c hc

/-- A listed cell of a written store is the one written or was listed before. -/
theorem mem_cellWrite [DecidableEq α] {d : α} {m : Memory α} {a : Nat} {v : α} {c : Nat × α}
    (h : c ∈ cellWrite d m a v) : c = (a, v) ∨ c ∈ m := by
  unfold cellWrite at h
  split at h
  · exact .inr (mem_cellErase h)
  · exact mem_cellInsert h

/-- The framebuffer write keeps the framebuffer's form. -/
theorem cellInsert_fbWf {m : Memory Colour} (h : Memory.fbWf m) {a : Nat} (ha : a < 61440) (v : Colour) :
    Memory.fbWf (cellInsert m a v) := by
  refine ⟨cellInsert_rises h.1 a v, fun c hc => ?_⟩
  rcases mem_cellInsert hc with rfl | hc
  · exact ha
  · exact h.2 c hc

theorem cellRead_filterMap_range (f : Nat → Cell5) (n x : Nat) :
    cellRead 0#5 ((List.range' x n).filterMap
      (fun x => if f x = 0#5 then none else some (x, f x))) = fun b =>
        if x ≤ b ∧ b < x + n then f b else 0#5 := by
  induction n generalizing x with
  | zero => funext b; simp [cellRead, cellLookup]
  | succ n ih =>
    funext b
    have ihb := congrFun (ih (x + 1)) b
    simp only [List.range'_succ, List.filterMap_cons]
    by_cases hx : f x = 0#5
    · simp only [hx, if_true, ihb]
      by_cases hb : b = x
      · subst hb; simp [hx]
      · by_cases h1 : x + 1 ≤ b ∧ b < x + 1 + n
        · rw [if_pos h1, if_pos (by omega)]
        · rw [if_neg h1, if_neg (by omega)]
    · simp only [hx, if_false]
      by_cases hb : x = b
      · subst hb; simp [cellRead, cellLookup]
      · unfold cellRead at ihb ⊢
        simp only [cellLookup, hb, if_false, ihb]
        by_cases h1 : x + 1 ≤ b ∧ b < x + 1 + n
        · rw [if_pos h1, if_pos (by omega)]
        · rw [if_neg h1, if_neg (by omega)]

/-- The row that `scanRow f` holds: `f x` in column `x`, and nothing beyond column 255. -/
theorem scanRead_scanRow (f : Nat → Cell5) (x : Nat) :
    scanRead (scanRow f) x = if x < 256 then f x else 0#5 := by
  have h := congrFun (cellRead_filterMap_range f 256 0) x
  simpa [scanRead, scanRow, List.range_eq_range'] using h

theorem scanRow_wf (f : Nat → Cell5) : Memory.wf 0#5 256 (scanRow f) := by
  refine ⟨?_, ?_⟩
  · unfold scanRow
    refine List.Pairwise.filterMap _ (R := (· < ·)) ?_ List.pairwise_lt_range
    intro a a' haa b hb b' hb'
    simp only [Option.ite_none_left_eq_some, Option.some.injEq] at hb hb'
    rw [← hb.2, ← hb'.2]; exact haa
  · intro c hc
    simp only [scanRow, List.mem_filterMap, List.mem_range, Option.ite_none_left_eq_some,
      Option.some.injEq] at hc
    obtain ⟨x, hx, hne, rfl⟩ := hc
    exact ⟨hx, hne⟩

end Sys2Proof.Machine
end

