-- ==== Sys2Proof/Laws/Ops.lean ====
section
/-! SUPPORT. What each shared operation and each register access can do. -/

namespace Sys2Proof.Machine

/-- A transaction on a machine that has not faulted has its effect. -/
theorem transact_live {f : State → State} {s : State} (h : s.fault = none) :
    transact f s = .next (f s) := by simp [transact, h]

theorem transactRead_live {f : State → Byte × State} {s : State} (h : s.fault = none) :
    transactRead f s = .next ((f s).2.setResp (.byte (f s).1)) := transact_live h

theorem transactSilent_live {f : State → State} {s : State} (h : s.fault = none) :
    transactSilent f s = .next ((f s).setResp .none) := transact_live h

/-- A transaction on a faulted machine leaves the state unchanged. -/
theorem transact_faulted {f : State → State} {s : State} (h : s.fault ≠ none) :
    transact f s = .next s := by
  obtain ⟨x, hx⟩ := Option.ne_none_iff_exists'.1 h
  simp [transact, hx]

theorem videoAddr_toNat (a : Nat) : (videoAddr a).toNat = a % 0x4000 := by
  simp [videoAddr, BitVec.toNat_ofNat]

theorem pidx_lt (a : Nat) : pidx a < 32 := by unfold pidx; split <;> omega

theorem pidx_reachable (a : Nat) : pidx a = 0 ∨ pidx a % 4 ≠ 0 := by
  unfold pidx; split <;> omega

@[simp] theorem oamRead_oamPush (s : State) (v : Byte) (i : Nat) :
    oamRead (oamPush s v) i = if i % 256 = s.oamaddr.toNat then v else oamRead s i := by
  simp [oamRead, oamPush]

@[simp] theorem palRead_palWrite (s : State) (i j : Nat) (v : Byte) :
    palRead (palWrite s i v) j = if j = i then v else palRead s j := by
  simp [palRead, palWrite]

/-- The framebuffer cell written reads as written, every other cell as before. -/
theorem fbRead_fbWrite (s : State) (x y x' y' : Nat) (c : Colour) :
    fbRead (fbWrite s x y c) x' y' =
      if pixelIndex x' y' = pixelIndex x y then c else fbRead s x' y' := by
  unfold fbRead fbWrite
  simp only [State.setFb_fb, cellLookup_insert]
  split <;> rfl

/-- What a register access may leave changed. Everything else of the state, the timing side above all, is
as before. -/
structure AccessFrame (s t : State) : Prop where
  scan : t.scan = s.scan
  fb : t.fb = s.fb
  dot : t.dot = s.dot
  line : t.line = s.line
  ipend : t.ipend = s.ipend
  hitcol : t.hitcol = s.hitcol
  clk : t.clk = s.clk
  nmiprev : t.nmiprev = s.nmiprev
  totdots : t.totdots = s.totdots
  lastrep : t.lastrep = s.lastrep
  fault : t.fault = s.fault
  cpu : t.cpu = s.cpu
  params : t.params = s.params
  script : t.script = s.script
  resp : t.resp = s.resp
  s0h : statusS0H t.status = statusS0H s.status
  statusLow : t.status.extractLsb' 0 6 = s.status.extractLsb' 0 6
  vbl : statusVBL t.status = true → statusVBL s.status = true

theorem AccessFrame.refl (s : State) : AccessFrame s s := by constructor <;> simp

theorem AccessFrame.trans {s t u : State} (a : AccessFrame s t) (b : AccessFrame t u) :
    AccessFrame s u where
  scan := b.scan.trans a.scan
  fb := b.fb.trans a.fb
  dot := b.dot.trans a.dot
  line := b.line.trans a.line
  ipend := b.ipend.trans a.ipend
  hitcol := b.hitcol.trans a.hitcol
  clk := b.clk.trans a.clk
  nmiprev := b.nmiprev.trans a.nmiprev
  totdots := b.totdots.trans a.totdots
  lastrep := b.lastrep.trans a.lastrep
  fault := b.fault.trans a.fault
  cpu := b.cpu.trans a.cpu
  params := b.params.trans a.params
  script := b.script.trans a.script
  resp := b.resp.trans a.resp
  s0h := b.s0h.trans a.s0h
  statusLow := b.statusLow.trans a.statusLow
  vbl := fun h => a.vbl (b.vbl h)

@[simp] theorem statusS0H_clearVBL (st : Byte) : statusS0H (clearVBL st) = statusS0H st := by
  simp [statusS0H, clearVBL]

@[simp] theorem statusVBL_clearVBL (st : Byte) : statusVBL (clearVBL st) = false := by
  simp [statusVBL, clearVBL]

@[simp] theorem statusS0H_clearS0H (st : Byte) : statusS0H (clearS0H st) = false := by
  simp [statusS0H, clearS0H]

@[simp] theorem statusVBL_clearS0H (st : Byte) : statusVBL (clearS0H st) = statusVBL st := by
  simp [statusVBL, clearS0H]

@[simp] theorem statusS0H_setS0H (st : Byte) : statusS0H (setS0H st) = true := by
  simp [statusS0H, setS0H]

@[simp] theorem statusVBL_setS0H (st : Byte) : statusVBL (setS0H st) = statusVBL st := by
  simp [statusVBL, setS0H]

@[simp] theorem statusS0H_setVBL (st : Byte) : statusS0H (setVBL st) = statusS0H st := by
  simp [statusS0H, setVBL]

@[simp] theorem statusVBL_setVBL (st : Byte) : statusVBL (setVBL st) = true := by
  simp [statusVBL, setVBL]

theorem low_and {m : Byte} (hm : ∀ i < 6, m.getLsbD i = true) (st : Byte) :
    (st &&& m).extractLsb' 0 6 = st.extractLsb' 0 6 := by
  apply BitVec.eq_of_getLsbD_eq
  intro i hi
  simp [hi, hm i hi]

theorem low_or {m : Byte} (hm : ∀ i < 6, m.getLsbD i = false) (st : Byte) :
    (st ||| m).extractLsb' 0 6 = st.extractLsb' 0 6 := by
  apply BitVec.eq_of_getLsbD_eq
  intro i hi
  simp [hi, hm i hi]

@[simp] theorem low_clearVBL (st : Byte) : (clearVBL st).extractLsb' 0 6 = st.extractLsb' 0 6 :=
  low_and (by decide) st

@[simp] theorem low_clearS0H (st : Byte) : (clearS0H st).extractLsb' 0 6 = st.extractLsb' 0 6 :=
  low_and (by decide) st

@[simp] theorem low_setVBL (st : Byte) : (setVBL st).extractLsb' 0 6 = st.extractLsb' 0 6 :=
  low_or (by decide) st

@[simp] theorem low_setS0H (st : Byte) : (setS0H st).extractLsb' 0 6 = st.extractLsb' 0 6 :=
  low_or (by decide) st

theorem memWrite_frame (s : State) (a : Nat) (v : Byte) : AccessFrame s (memWrite s a v) := by
  unfold memWrite palWrite; split <;> constructor <;> simp

theorem advanceVaddr_frame (s : State) : AccessFrame s (advanceVaddr s) := by
  unfold advanceVaddr; constructor <;> simp

/-- What a register read can do to the rest of the machine. -/
theorem readReg_frame (r : Reg) (s : State) : AccessFrame s (readReg r s).2 := by
  cases r <;>
    simp only [readReg, readCtrl, readMask, readStatus, readOamaddr, readOamdata, readScroll, readAddr,
      readData, draw8] <;>
    first
    | exact advanceVaddr_frame s
    | (constructor <;> simp)

/-- What a register write can do to the rest of the machine. -/
theorem writeReg_frame (r : Reg) (v : Byte) (s : State) : AccessFrame s (writeReg r v s) := by
  cases r <;>
    simp only [writeReg, writeCtrl, writeMask, writeStatus, writeOamaddr, writeOamdata, writeScroll,
      writeAddr, writeData, oamPush] <;>
    first
    | exact (memWrite_frame s _ v).trans (advanceVaddr_frame _)
    | (constructor <;> simp)

theorem busRead_frame (a : Addr16) (s : State) : AccessFrame s (busRead a s).2 := by
  unfold busRead draw8; split <;> constructor <;> simp

/-! What the reads depend on. -/

theorem memRead_congr {s t : State} (h1 : t.pal = s.pal) (h2 : t.cart = s.cart) (a : Nat) :
    memRead t a = memRead s a := by
  unfold memRead palRead; rw [h1, h2]

theorem oamRead_congr {s t : State} (h : t.oam = s.oam) (i : Nat) : oamRead t i = oamRead s i := by
  unfold oamRead; rw [h]

theorem palRead_congr {s t : State} (h : t.pal = s.pal) (i : Nat) : palRead t i = palRead s i := by
  unfold palRead; rw [h]

@[simp] theorem scanRead_scanWrite (m : Memory Cell5) (x x' : Nat) (c : Cell5) :
    scanRead (scanWrite m x c) x' = if x' = x then c else scanRead m x' := by
  simp [scanRead, scanWrite]

/-- The DMA source address of byte `c` of page `p` (46_scheduler.md R249). -/
theorem dmaSource_toNat (p : Byte) (c : Fin 256) : (dmaSource p c).toNat = p.toNat * 256 + c.val := by
  unfold dmaSource
  rw [BitVec.toNat_append, Nat.shiftLeft_eq_mul_pow, Nat.mul_comm,
    ← Nat.two_pow_add_eq_or_of_lt (by simp)]
  simp


/-- One ADDR write in plain numbers (41_registers.md R133). -/
theorem shiftAddress_toNat (a : Addr14) (v : Byte) :
    (shiftAddress a v).toNat = (a.toNat % 0x40) * 0x100 + v.toNat := by
  unfold shiftAddress
  rw [BitVec.toNat_append, BitVec.extractLsb'_toNat, Nat.shiftLeft_eq_mul_pow, Nat.mul_comm,
    ← Nat.two_pow_add_eq_or_of_lt (by have := v.isLt; simpa using this)]
  simp [Nat.mul_comm]

/-- The data port's advance in plain numbers (41_registers.md R134, R135). -/
theorem add_dataIncrement_toNat (a : Addr14) (inc : Bool) :
    (a + dataIncrement inc).toNat = (a.toNat + if inc = true then 32 else 1) % 0x4000 := by
  cases inc <;> simp [dataIncrement, BitVec.toNat_add]

end Sys2Proof.Machine
end

