-- ==== Sys2Proof/Laws/Timing.lean ====
section
/-! SUPPORT. What one dot of the timing machine can do. -/

namespace Sys2Proof.Machine

/-- What no dot changes: the registers a bus write reaches but OAMADDR and STATUS, the memories but SCAN
and FB, the scheduler's state, and the collaborators. -/
structure DotFrame (s t : State) : Prop where
  ctrl : t.ctrl = s.ctrl
  mask : t.mask = s.mask
  scrollX : t.scrollX = s.scrollX
  scrollY : t.scrollY = s.scrollY
  vaddr : t.vaddr = s.vaddr
  vtog : t.vtog = s.vtog
  oam : t.oam = s.oam
  pal : t.pal = s.pal
  clk : t.clk = s.clk
  dma : t.dma = s.dma
  nmiprev : t.nmiprev = s.nmiprev
  lastrep : t.lastrep = s.lastrep
  cpu : t.cpu = s.cpu
  cart : t.cart = s.cart
  params : t.params = s.params
  script : t.script = s.script
  resp : t.resp = s.resp
  draws : t.draws = s.draws
  statusLow : t.status.extractLsb' 0 6 = s.status.extractLsb' 0 6

theorem DotFrame.refl (s : State) : DotFrame s s := by constructor <;> rfl

theorem DotFrame.trans {s t u : State} (a : DotFrame s t) (b : DotFrame t u) : DotFrame s u where
  ctrl := b.ctrl.trans a.ctrl
  mask := b.mask.trans a.mask
  scrollX := b.scrollX.trans a.scrollX
  scrollY := b.scrollY.trans a.scrollY
  vaddr := b.vaddr.trans a.vaddr
  vtog := b.vtog.trans a.vtog
  oam := b.oam.trans a.oam
  pal := b.pal.trans a.pal
  clk := b.clk.trans a.clk
  dma := b.dma.trans a.dma
  nmiprev := b.nmiprev.trans a.nmiprev
  lastrep := b.lastrep.trans a.lastrep
  cpu := b.cpu.trans a.cpu
  cart := b.cart.trans a.cart
  params := b.params.trans a.params
  script := b.script.trans a.script
  resp := b.resp.trans a.resp
  draws := b.draws.trans a.draws
  statusLow := b.statusLow.trans a.statusLow

theorem frameStart_frame (s : State) : DotFrame s (frameStart s) := by
  unfold frameStart; split <;> constructor <;> simp

theorem renderBackground_frame (s : State) : DotFrame s (renderBackground s) := by
  unfold renderBackground bgLine; split <;> constructor <;> simp

theorem renderSprites_frame (s : State) : DotFrame s (renderSprites s) := by
  unfold renderSprites spriteLine; split <;> constructor <;> simp

theorem lineRender_frame (s : State) : DotFrame s (lineRender s) := by
  unfold lineRender
  split
  · exact (renderBackground_frame s).trans (renderSprites_frame _)
  · exact .refl s

theorem vblankEntry_frame (s : State) : DotFrame s (vblankEntry s) := by
  unfold vblankEntry; split <;> constructor <;> simp

theorem spriteZeroCheck_frame (s : State) : DotFrame s (spriteZeroCheck s) := by
  unfold spriteZeroCheck; split <;> constructor <;> simp

theorem pixel_frame (x y : Nat) (s : State) : DotFrame s (pixel x y s) := by
  unfold pixel raiseFault fbWrite; split <;> constructor <;> simp

theorem visibleDot_frame (s : State) : DotFrame s (visibleDot s) := by
  unfold visibleDot
  split
  · exact (spriteZeroCheck_frame s).trans (pixel_frame _ _ _)
  · exact .refl s

theorem hblankReset_frame (s : State) : DotFrame s (hblankReset s) := by
  unfold hblankReset; split <;> constructor <;> simp

theorem advanceCursor_frame (s : State) : DotFrame s (advanceCursor s) := by
  unfold advanceCursor; constructor <;> simp

theorem dotRender_frame (s : State) : DotFrame s (dotRender s) :=
  (((frameStart_frame s).trans (lineRender_frame _)).trans (vblankEntry_frame _)).trans
    (visibleDot_frame _)

theorem dotStep_frame (s : State) : DotFrame s (dotStep s) := by
  unfold dotStep
  split
  · exact dotRender_frame s
  · exact ((dotRender_frame s).trans (hblankReset_frame _)).trans (advanceCursor_frame _)

/-! ### The parts of a dot, field by field -/

/-- Inside the visible grid the pixel index is in bounds, so PIXEL writes and never faults (R214). -/
theorem pixelIndex_lt {x y : Nat} (hx : x < 256) (hy : y < 240) : pixelIndex x y < 61440 := by
  unfold pixelIndex; omega

theorem pixel_visible {x y : Nat} (hx : x < 256) (hy : y < 240) (s : State) :
    pixel x y s = fbWrite s x y (resolveCell s (scanRead s.scan x)) := by
  unfold pixel
  rw [if_neg (by have := pixelIndex_lt hx hy; omega)]

/-- The cursor stands still during a dot's actions. -/
structure CursorFrame (s t : State) : Prop where
  dot : t.dot = s.dot
  line : t.line = s.line
  totdots : t.totdots = s.totdots
  fault : t.fault = s.fault

theorem CursorFrame.trans {s t u : State} (a : CursorFrame s t) (b : CursorFrame t u) :
    CursorFrame s u :=
  ⟨b.dot.trans a.dot, b.line.trans a.line, b.totdots.trans a.totdots, b.fault.trans a.fault⟩

theorem frameStart_cursor (s : State) : CursorFrame s (frameStart s) := by
  unfold frameStart; split <;> constructor <;> simp

theorem lineRender_cursor (s : State) : CursorFrame s (lineRender s) := by
  unfold lineRender renderSprites renderBackground bgLine spriteLine
  constructor <;> (split <;> [skip; rfl]) <;> split <;> split <;> simp

theorem vblankEntry_cursor (s : State) : CursorFrame s (vblankEntry s) := by
  unfold vblankEntry; split <;> constructor <;> simp

theorem spriteZeroCheck_cursor (s : State) : CursorFrame s (spriteZeroCheck s) := by
  unfold spriteZeroCheck; split <;> constructor <;> simp

theorem visibleDot_cursor (s : State) : CursorFrame s (visibleDot s) := by
  unfold visibleDot
  split
  · rename_i h
    refine (spriteZeroCheck_cursor s).trans ?_
    rw [pixel_visible h.1 h.2]
    constructor <;> simp [fbWrite]
  · constructor <;> rfl

theorem dotRender_cursor (s : State) : CursorFrame s (dotRender s) :=
  (((frameStart_cursor s).trans (lineRender_cursor _)).trans (vblankEntry_cursor _)).trans
    (visibleDot_cursor _)

/-- On a machine that has not faulted no dot faults, so DOT_STEP runs to its end. -/
theorem dotStep_live {s : State} (h : s.fault = none) :
    dotStep s = advanceCursor (hblankReset (dotRender s)) := by
  unfold dotStep
  rw [(dotRender_cursor s).fault, h]
  rfl

theorem hblankReset_cursor (s : State) : CursorFrame s (hblankReset s) := by
  unfold hblankReset; split <;> constructor <;> simp

theorem dotStep_fault {s : State} (h : s.fault = none) : (dotStep s).fault = none := by
  rw [dotStep_live h]
  simp [advanceCursor, (hblankReset_cursor _).fault, (dotRender_cursor s).fault, h]

theorem dotStep_totdots {s : State} (h : s.fault = none) :
    (dotStep s).totdots = s.totdots + 1 := by
  rw [dotStep_live h]
  simp [advanceCursor, (hblankReset_cursor _).totdots, (dotRender_cursor s).totdots]

theorem dotStep_dot {s : State} (h : s.fault = none) : (dotStep s).dot = nextDot s.dot := by
  rw [dotStep_live h]
  simp [advanceCursor, (hblankReset_cursor _).dot, (dotRender_cursor s).dot]

theorem dotStep_line {s : State} (h : s.fault = none) :
    (dotStep s).line = nextLine s.dot s.line := by
  rw [dotStep_live h]
  simp [advanceCursor, (hblankReset_cursor _).dot, (dotRender_cursor s).dot,
    (hblankReset_cursor _).line, (dotRender_cursor s).line]

/-! What each part of a dot leaves alone. -/

@[simp] theorem frameStart_hitcol (s : State) : (frameStart s).hitcol = s.hitcol := by
  unfold frameStart; split <;> rfl

@[simp] theorem frameStart_fb (s : State) : (frameStart s).fb = s.fb := by
  unfold frameStart; split <;> rfl

@[simp] theorem frameStart_oamaddr (s : State) : (frameStart s).oamaddr = s.oamaddr := by
  unfold frameStart; split <;> rfl

@[simp] theorem renderBackground_ipend (s : State) : (renderBackground s).ipend = s.ipend := by
  unfold renderBackground; split <;> rfl

@[simp] theorem renderBackground_status (s : State) : (renderBackground s).status = s.status := by
  unfold renderBackground; split <;> rfl

@[simp] theorem renderBackground_fb (s : State) : (renderBackground s).fb = s.fb := by
  unfold renderBackground; split <;> rfl

@[simp] theorem renderBackground_oamaddr (s : State) : (renderBackground s).oamaddr = s.oamaddr := by
  unfold renderBackground; split <;> rfl

@[simp] theorem renderBackground_hitcol (s : State) : (renderBackground s).hitcol = s.hitcol := by
  unfold renderBackground; split <;> rfl

@[simp] theorem renderSprites_ipend (s : State) : (renderSprites s).ipend = s.ipend := by
  unfold renderSprites; split <;> rfl

@[simp] theorem renderSprites_status (s : State) : (renderSprites s).status = s.status := by
  unfold renderSprites; split <;> rfl

@[simp] theorem renderSprites_fb (s : State) : (renderSprites s).fb = s.fb := by
  unfold renderSprites; split <;> rfl

@[simp] theorem renderSprites_oamaddr (s : State) : (renderSprites s).oamaddr = s.oamaddr := by
  unfold renderSprites; split <;> rfl

@[simp] theorem lineRender_ipend (s : State) : (lineRender s).ipend = s.ipend := by
  unfold lineRender; split <;> simp

@[simp] theorem lineRender_status (s : State) : (lineRender s).status = s.status := by
  unfold lineRender; split <;> simp

@[simp] theorem lineRender_fb (s : State) : (lineRender s).fb = s.fb := by
  unfold lineRender; split <;> simp

@[simp] theorem lineRender_oamaddr (s : State) : (lineRender s).oamaddr = s.oamaddr := by
  unfold lineRender; split <;> simp

@[simp] theorem vblankEntry_scan (s : State) : (vblankEntry s).scan = s.scan := by
  unfold vblankEntry; split <;> rfl

@[simp] theorem vblankEntry_hitcol (s : State) : (vblankEntry s).hitcol = s.hitcol := by
  unfold vblankEntry; split <;> rfl

@[simp] theorem vblankEntry_fb (s : State) : (vblankEntry s).fb = s.fb := by
  unfold vblankEntry; split <;> rfl

@[simp] theorem vblankEntry_oamaddr (s : State) : (vblankEntry s).oamaddr = s.oamaddr := by
  unfold vblankEntry; split <;> rfl

@[simp] theorem spriteZeroCheck_scan (s : State) : (spriteZeroCheck s).scan = s.scan := by
  unfold spriteZeroCheck; split <;> rfl

@[simp] theorem spriteZeroCheck_hitcol (s : State) : (spriteZeroCheck s).hitcol = s.hitcol := by
  unfold spriteZeroCheck; split <;> rfl

@[simp] theorem spriteZeroCheck_fb (s : State) : (spriteZeroCheck s).fb = s.fb := by
  unfold spriteZeroCheck; split <;> rfl

@[simp] theorem spriteZeroCheck_ipend (s : State) : (spriteZeroCheck s).ipend = s.ipend := by
  unfold spriteZeroCheck; split <;> rfl

@[simp] theorem spriteZeroCheck_oamaddr (s : State) : (spriteZeroCheck s).oamaddr = s.oamaddr := by
  unfold spriteZeroCheck; split <;> rfl

@[simp] theorem visibleDot_scan (s : State) : (visibleDot s).scan = s.scan := by
  unfold visibleDot pixel; split <;> [split <;> simp [raiseFault, fbWrite]; rfl]

@[simp] theorem visibleDot_hitcol (s : State) : (visibleDot s).hitcol = s.hitcol := by
  unfold visibleDot pixel; split <;> [split <;> simp [raiseFault, fbWrite]; rfl]

@[simp] theorem visibleDot_ipend (s : State) : (visibleDot s).ipend = s.ipend := by
  unfold visibleDot pixel; split <;> [split <;> simp [raiseFault, fbWrite]; rfl]

@[simp] theorem visibleDot_oamaddr (s : State) : (visibleDot s).oamaddr = s.oamaddr := by
  unfold visibleDot pixel; split <;> [split <;> simp [raiseFault, fbWrite]; rfl]

@[simp] theorem hblankReset_scan (s : State) : (hblankReset s).scan = s.scan := by
  unfold hblankReset; split <;> rfl

@[simp] theorem hblankReset_hitcol (s : State) : (hblankReset s).hitcol = s.hitcol := by
  unfold hblankReset; split <;> rfl

@[simp] theorem hblankReset_fb (s : State) : (hblankReset s).fb = s.fb := by
  unfold hblankReset; split <;> rfl

@[simp] theorem hblankReset_ipend (s : State) : (hblankReset s).ipend = s.ipend := by
  unfold hblankReset; split <;> rfl

@[simp] theorem hblankReset_status (s : State) : (hblankReset s).status = s.status := by
  unfold hblankReset; split <;> rfl

@[simp] theorem advanceCursor_scan (s : State) : (advanceCursor s).scan = s.scan := rfl

@[simp] theorem advanceCursor_hitcol (s : State) : (advanceCursor s).hitcol = s.hitcol := rfl

@[simp] theorem advanceCursor_fb (s : State) : (advanceCursor s).fb = s.fb := rfl

@[simp] theorem advanceCursor_ipend (s : State) : (advanceCursor s).ipend = s.ipend := rfl

@[simp] theorem advanceCursor_status (s : State) : (advanceCursor s).status = s.status := rfl

@[simp] theorem advanceCursor_oamaddr (s : State) : (advanceCursor s).oamaddr = s.oamaddr := rfl

/-- OAMADDR after a dot: the hblank reset or nothing (R225). -/
theorem dotStep_oamaddr {s : State} (h : s.fault = none) :
    (dotStep s).oamaddr =
      if 256 ≤ s.dot.val ∧ s.line.val < 240 ∧ maskSPE s.mask = true then 0#8 else s.oamaddr := by
  have ho : (dotRender s).oamaddr = s.oamaddr := by simp [dotRender]
  rw [dotStep_live h, advanceCursor_oamaddr]
  simp only [hblankReset, (dotRender_cursor s).dot, (dotRender_cursor s).line, (dotRender_frame s).mask]
  split <;> simp [ho]

/-- IPEND after a dot (R221, R223). -/
theorem dotStep_ipend {s : State} (h : s.fault = none) :
    (dotStep s).ipend =
      if s.dot.val = 0 ∧ s.line.val = 0 then false
      else if s.dot.val = 1 ∧ s.line.val = 241 then true else s.ipend := by
  have h1 : (frameStart s).ipend = if s.dot.val = 0 ∧ s.line.val = 0 then false else s.ipend := by
    unfold frameStart; split <;> simp
  rw [dotStep_live h]
  simp only [advanceCursor_ipend, hblankReset_ipend, dotRender, visibleDot_ipend, vblankEntry,
    (lineRender_cursor _).dot, (lineRender_cursor _).line, (frameStart_cursor s).dot,
    (frameStart_cursor s).line]
  by_cases h0 : s.dot.val = 0 ∧ s.line.val = 0
  · rw [if_pos h0, if_neg (by omega), lineRender_ipend, h1, if_pos h0]
  · rw [if_neg h0]
    split
    · simp
    · rw [lineRender_ipend, h1, if_neg h0]

/-- The state as the visible part of a dot sees it: after frame start and line render. -/
def rendered (s : State) : State := lineRender (frameStart s)

theorem rendered_cursor (s : State) : CursorFrame s (rendered s) :=
  (frameStart_cursor s).trans (lineRender_cursor _)

theorem rendered_frame (s : State) : DotFrame s (rendered s) :=
  (frameStart_frame s).trans (lineRender_frame _)

theorem dotRender_eq (s : State) : dotRender s = visibleDot (vblankEntry (rendered s)) := rfl

theorem dotStep_scan {s : State} (h : s.fault = none) : (dotStep s).scan = (rendered s).scan := by
  rw [dotStep_live h, dotRender_eq]; simp

theorem dotStep_hitcol {s : State} (h : s.fault = none) :
    (dotStep s).hitcol = (rendered s).hitcol := by
  rw [dotStep_live h, dotRender_eq]; simp

/-- STATUS after a dot (R221, R223, R224). -/
theorem dotStep_status {s : State} (h : s.fault = none) :
    (dotStep s).status =
      (let st0 := if s.dot.val = 0 ∧ s.line.val = 0 then clearS0H (clearVBL s.status) else s.status
       let st1 := if s.dot.val = 1 ∧ s.line.val = 241 then setVBL st0 else st0
       if s.dot.val < 256 ∧ s.line.val < 240 ∧ (dotStep s).hitcol.map Fin.val = some s.dot.val
       then setS0H st1 else st1) := by
  rw [dotStep_hitcol h, dotStep_live h]
  have h1 : (rendered s).status =
      if s.dot.val = 0 ∧ s.line.val = 0 then clearS0H (clearVBL s.status) else s.status := by
    unfold rendered frameStart; rw [lineRender_status]; split <;> simp
  have h3 : (vblankEntry (rendered s)).status =
      if s.dot.val = 1 ∧ s.line.val = 241 then setVBL (rendered s).status
      else (rendered s).status := by
    unfold vblankEntry; rw [(rendered_cursor s).dot, (rendered_cursor s).line]; split <;> simp
  have hc := (rendered_cursor s).trans (vblankEntry_cursor _)
  have h4 : (visibleDot (vblankEntry (rendered s))).status =
      if s.dot.val < 256 ∧ s.line.val < 240 ∧ (rendered s).hitcol.map Fin.val = some s.dot.val
      then setS0H (vblankEntry (rendered s)).status else (vblankEntry (rendered s)).status := by
    unfold visibleDot
    rw [hc.dot, hc.line]
    by_cases hv : s.dot.val < 256 ∧ s.line.val < 240
    · rw [if_pos hv, pixel_visible hv.1 hv.2]
      simp only [fbWrite, State.setFb_status, spriteZeroCheck, hc.dot, vblankEntry_hitcol]
      by_cases hd : (rendered s).hitcol.map Fin.val = some s.dot.val
      · rw [if_pos hd, if_pos ⟨hv.1, hv.2, hd⟩]; rfl
      · rw [if_neg hd, if_neg (fun x => hd x.2.2)]
    · rw [if_neg hv, if_neg (fun x => hv ⟨x.1, x.2.1⟩)]
  rw [advanceCursor_status, hblankReset_status, dotRender_eq, h4, h3, h1]

/-- The framebuffer after a dot: a visible dot writes its rendered cell through the palette, and no other
dot writes (R210 to R214, R224). -/
theorem dotStep_fb {s : State} (h : s.fault = none) :
    (dotStep s).fb =
      if s.dot.val < 256 ∧ s.line.val < 240 then
        cellInsert s.fb (pixelIndex s.dot.val s.line.val)
          (resolveCell s (scanRead (dotStep s).scan s.dot.val))
      else s.fb := by
  rw [dotStep_scan h, dotStep_live h]
  have hc := (rendered_cursor s).trans (vblankEntry_cursor _)
  rw [advanceCursor_fb, hblankReset_fb, dotRender_eq]
  unfold visibleDot
  rw [hc.dot, hc.line]
  by_cases hv : s.dot.val < 256 ∧ s.line.val < 240
  · rw [if_pos hv, if_pos hv, pixel_visible hv.1 hv.2]
    have hf := ((rendered_frame s).trans (vblankEntry_frame _)).trans (spriteZeroCheck_frame _)
    simp only [fbWrite, State.setFb_fb, resolveCell, palRead, hf.pal, hf.params]
    simp [rendered]
  · rw [if_neg hv, if_neg hv]; simp [rendered]

/-! ### The cursor, the flags, the scanline and the pixel of one dot -/

theorem nextDot_val (d : Fin 341) : (nextDot d).val = if d.val = 340 then 0 else d.val + 1 := by
  unfold nextDot
  have := d.isLt
  split
  · rw [if_neg (by omega)]
  · rw [if_pos (by omega)]; rfl

theorem nextLine_val (d : Fin 341) (l : Fin 262) :
    (nextLine d l).val =
      if d.val = 340 then (if l.val = 261 then 0 else l.val + 1) else l.val := by
  unfold nextLine
  have := d.isLt
  have := l.isLt
  split
  · rw [if_neg (by omega)]
  · rw [if_pos (by omega)]
    split
    · rw [if_neg (by omega)]
    · rw [if_pos (by omega)]; rfl

/-- S0H after a dot (R221, R224). -/
theorem dotStep_s0h {s : State} (h : s.fault = none) :
    statusS0H (dotStep s).status =
      if s.dot.val < 256 ∧ s.line.val < 240 ∧ (dotStep s).hitcol.map Fin.val = some s.dot.val then true
      else if s.dot.val = 0 ∧ s.line.val = 0 then false
      else statusS0H s.status := by
  rw [dotStep_status h]
  dsimp only
  split
  · simp
  · by_cases h0 : s.dot.val = 0 ∧ s.line.val = 0
    · rw [if_pos h0, if_pos h0, if_neg (by omega)]; simp
    · rw [if_neg h0, if_neg h0]; split <;> simp

/-- VBL after a dot (R221, R223). -/
theorem dotStep_vbl {s : State} (h : s.fault = none) :
    statusVBL (dotStep s).status =
      if s.dot.val = 0 ∧ s.line.val = 0 then false
      else if s.dot.val = 1 ∧ s.line.val = 241 then true
      else statusVBL s.status := by
  rw [dotStep_status h]
  dsimp only
  by_cases h0 : s.dot.val = 0 ∧ s.line.val = 0
  · rw [if_pos h0, if_pos h0, if_neg (show ¬(s.dot.val = 1 ∧ s.line.val = 241) by omega)]
    split <;> simp
  · rw [if_neg h0, if_neg h0]; split <;> split <;> simp

theorem frameStart_scan (s : State) :
    (frameStart s).scan = if s.dot.val = 0 ∧ s.line.val = 0 then [] else s.scan := by
  unfold frameStart; split <;> rfl

/-- HITCOL is written by the evaluator alone (R222). -/
theorem rendered_hitcol {s : State}
    (hn : ¬(s.dot.val = 0 ∧ s.line.val < 240 ∧ maskSPE s.mask = true)) :
    (rendered s).hitcol = s.hitcol := by
  unfold rendered lineRender
  rw [(frameStart_cursor s).dot, (frameStart_cursor s).line]
  split
  · unfold renderSprites
    rw [(renderBackground_frame _).mask, (frameStart_frame s).mask]
    rw [if_neg (by tauto)]; simp
  · simp

/-- SCAN is written at dot 0 of a visible line alone (R221, R222). -/
theorem rendered_scan_keep {s : State} (hn : s.dot.val ≠ 0 ∨ 240 ≤ s.line.val) :
    (rendered s).scan = s.scan := by
  unfold rendered lineRender
  rw [(frameStart_cursor s).dot, (frameStart_cursor s).line, if_neg (by omega)]
  unfold frameStart
  rw [if_neg (by omega)]

theorem pidx_backdrop (c : Cell5) : pidx (backdrop c) = if c.toNat % 4 = 0 then 0 else c.toNat := by
  have := c.isLt
  unfold backdrop
  split
  · rfl
  · unfold pidx; rw [if_neg (by omega)]; omega

/-- The colour of a cell in plain numbers (R211 to R213). -/
theorem resolveCell_eq (s : State) (c : Cell5) :
    resolveCell s c = masterColour s.params
      (Fin.ofNat 64 (palRead s (if c.toNat % 4 = 0 then 0 else c.toNat)).toNat) := by
  unfold resolveCell
  rw [pidx_backdrop]
  congr 1

theorem pixelIndex_inj {x y x' y' : Nat} (hx : x < 256) (hx' : x' < 256) :
    pixelIndex x y = pixelIndex x' y' ↔ x = x' ∧ y = y' := by
  unfold pixelIndex; omega

end Sys2Proof.Machine
end

