-- ==== Sys2Proof/Laws/Scheduler.lean ====
section
/-! SUPPORT. What a bus access, a processor step, a DMA byte and a clock unit can do. -/

namespace Sys2Proof.Machine

/-- What a processor-bus read can do, wherever it goes. -/
theorem dispatchRead_frame (a : Addr16) (s : State) : AccessFrame s (dispatchRead a s).2 := by
  unfold dispatchRead
  split
  · exact readReg_frame _ s
  · split
    · unfold readDma draw8; constructor <;> simp
    · exact busRead_frame a s

/-- What a processor-bus write can do, wherever it goes. -/
theorem dispatchWrite_frame (a : Addr16) (v : Byte) (s : State) :
    AccessFrame s (dispatchWrite a v s) := by
  unfold dispatchWrite
  split
  · exact writeReg_frame _ v s
  · split
    · unfold writeDma; constructor <;> simp
    · exact .refl s

/-- RUN_STEP packaged once: what every access and the processor's new state keep, the whole step keeps. -/
theorem runStep_keeps {P : State → Prop} (hr : ∀ a s, P s → P (dispatchRead a s).2)
    (hw : ∀ a v s, P s → P (dispatchWrite a v s)) (hc : ∀ c s, P s → P (s.setCpu c)) :
    ∀ st s, P s → P (runStep st s).2
  | .read a k, s, h => runStep_keeps hr hw hc (k (dispatchRead a s).1) _ (hr a s h)
  | .write a v next, s, h => runStep_keeps hr hw hc next _ (hw a v s h)
  | .done c _, s, h => hc c s h

/-- What the branch of a clock unit leaves alone, whichever branch it is: all of the timing side. -/
structure UnitFrame (s t : State) : Prop where
  scan : t.scan = s.scan
  fb : t.fb = s.fb
  dot : t.dot = s.dot
  line : t.line = s.line
  ipend : t.ipend = s.ipend
  hitcol : t.hitcol = s.hitcol
  clk : t.clk = s.clk
  totdots : t.totdots = s.totdots
  lastrep : t.lastrep = s.lastrep
  fault : t.fault = s.fault
  params : t.params = s.params
  script : t.script = s.script
  resp : t.resp = s.resp
  s0h : statusS0H t.status = statusS0H s.status
  statusLow : t.status.extractLsb' 0 6 = s.status.extractLsb' 0 6
  vbl : statusVBL t.status = true → statusVBL s.status = true

theorem AccessFrame.unit {s t : State} (h : AccessFrame s t) : UnitFrame s t where
  scan := h.scan
  fb := h.fb
  dot := h.dot
  line := h.line
  ipend := h.ipend
  hitcol := h.hitcol
  clk := h.clk
  totdots := h.totdots
  lastrep := h.lastrep
  fault := h.fault
  params := h.params
  script := h.script
  resp := h.resp
  s0h := h.s0h
  statusLow := h.statusLow
  vbl := h.vbl

theorem UnitFrame.refl (s : State) : UnitFrame s s := (AccessFrame.refl s).unit

theorem UnitFrame.trans {s t u : State} (a : UnitFrame s t) (b : UnitFrame t u) : UnitFrame s u where
  scan := b.scan.trans a.scan
  fb := b.fb.trans a.fb
  dot := b.dot.trans a.dot
  line := b.line.trans a.line
  ipend := b.ipend.trans a.ipend
  hitcol := b.hitcol.trans a.hitcol
  clk := b.clk.trans a.clk
  totdots := b.totdots.trans a.totdots
  lastrep := b.lastrep.trans a.lastrep
  fault := b.fault.trans a.fault
  params := b.params.trans a.params
  script := b.script.trans a.script
  resp := b.resp.trans a.resp
  s0h := b.s0h.trans a.s0h
  statusLow := b.statusLow.trans a.statusLow
  vbl := fun h => a.vbl (b.vbl h)

theorem setCpu_unit (s : State) (c : CpuState) : UnitFrame s (s.setCpu c) := by
  constructor <;> simp

theorem setDma_unit (s : State) (d : Dma) : UnitFrame s (s.setDma d) := by
  constructor <;> simp

theorem runStep_frame (st : CpuStep) (s : State) : UnitFrame s (runStep st s).2 :=
  runStep_keeps (P := UnitFrame s) (fun a _ h => h.trans (dispatchRead_frame a _).unit)
    (fun a v _ h => h.trans (dispatchWrite_frame a v _).unit)
    (fun c _ h => h.trans (setCpu_unit _ c)) st s (.refl s)

theorem sampleNmi_frame (s : State) : UnitFrame s (sampleNmi s) := by
  unfold sampleNmi deliverNmi
  split <;> constructor <;> simp

/-- The NMI sample in one piece: the processor raised on a rising edge alone, the latch set (R247). -/
theorem sampleNmi_eq (s : State) :
    sampleNmi s = (s.setCpu (if nmiOut s && !s.nmiprev then cpuRaiseNmi s.cpu else s.cpu)).setNmiprev
      (nmiOut s) := by
  unfold sampleNmi deliverNmi
  split <;> rfl

/-! A processor step, by its shape (R245, R246). -/

theorem performStep_read (a : Addr16) (k : Byte → CpuStep) (s : State) :
    performStep (.read a k) s = performStep (k (dispatchRead a s).1) (dispatchRead a s).2 := rfl

theorem performStep_write (a : Addr16) (v : Byte) (c : CpuStep) (s : State) :
    performStep (.write a v c) s = performStep c (dispatchWrite a v s) := rfl

theorem performStep_busy (c : CpuState) (s : State) : performStep (.done c true) s = s.setCpu c := rfl

theorem performStep_boundary (c : CpuState) (s : State) :
    performStep (.done c false) s =
      (s.setCpu (if nmiOut s && !s.nmiprev then cpuRaiseNmi c else c)).setNmiprev (nmiOut s) :=
  sampleNmi_eq (s.setCpu c)

theorem performStep_frame (c : CpuStep) (s : State) : UnitFrame s (performStep c s) := by
  unfold performStep
  split
  · exact runStep_frame _ s
  · exact (runStep_frame _ s).trans (sampleNmi_frame _)

theorem processorStep_frame (s : State) : UnitFrame s (processorStep s) := performStep_frame _ s

/-- Where a DMA transfer stands after a byte (R250): on, or ended after byte 255. -/
theorem nextDma_on (page : Byte) {count : Fin 256} (h : count.val < 255) :
    nextDma page count = .active page ⟨count.val + 1, by omega⟩ := by
  unfold nextDma; rw [dif_pos (by omega)]

theorem nextDma_last (page : Byte) {count : Fin 256} (h : count.val = 255) :
    nextDma page count = .inactive := by
  unfold nextDma; rw [dif_neg (by omega)]

theorem oamPush_frame (s : State) (v : Byte) : UnitFrame s (oamPush s v) := by
  unfold oamPush; constructor <;> simp

theorem dmaByte_frame (page : Byte) (count : Fin 256) (s : State) :
    UnitFrame s (dmaByte page count s) := by
  unfold dmaByte
  exact ((dispatchRead_frame _ s).unit.trans (oamPush_frame _ _)).trans (setDma_unit _ _)

theorem unitBranch_frame (k : Nat) (s : State) : UnitFrame s (unitBranch k s) := by
  unfold unitBranch
  split
  · split
    · exact processorStep_frame s
    · exact .refl s
  · exact dmaByte_frame _ _ s

/-- A clock unit of a machine that has not faulted runs to its end. -/
theorem clockUnit_live {s : State} (h : s.fault = none) :
    clockUnit s = (unitBranch s.clk (dotStep s)).setClk (s.clk + 1) := by
  unfold clockUnit
  rw [dotStep_fault h]
  rfl

/-- TICK on a machine that has not faulted is its clock unit. -/
theorem execTick_live {s : State} (h : s.fault = none) :
    execTick s = .next (((unitBranch s.clk (dotStep s)).setClk (s.clk + 1)).setResp .none) := by
  unfold execTick
  rw [transactSilent_live h, clockUnit_live h]

/-- What a clock unit after its dot leaves as the dot left it. -/
theorem tick_frame (s : State) :
    UnitFrame (dotStep s) (unitBranch s.clk (dotStep s)) := unitBranch_frame _ _

/-- No unit of the machine changes the parameters. -/
theorem tick_params (s : State) : (unitBranch s.clk (dotStep s)).params = s.params :=
  (tick_frame s).params.trans (dotStep_frame s).params

/-- The processor's state after the sample: raised on a rising edge alone (R247). -/
theorem sampleNmi_cpu (s : State) :
    (sampleNmi s).cpu = if nmiOut s && !s.nmiprev then cpuRaiseNmi s.cpu else s.cpu := by
  unfold sampleNmi deliverNmi; split <;> rfl

theorem sampleNmi_nmiprev (s : State) : (sampleNmi s).nmiprev = nmiOut s := rfl

end Sys2Proof.Machine
end

