-- ==== Sys2Proof/Laws/Exec.lean ====
section
/-! SUPPORT. Every transaction in one shape, and what a step can do. -/

namespace Sys2Proof.Machine

/-- The effect of each transaction on a machine that has not faulted. -/
def effect (i : Instr) (s : State) : State :=
  match i with
  | .rdCtrl      => (readCtrl s).2.setResp (.byte (readCtrl s).1)
  | .rdMask      => (readMask s).2.setResp (.byte (readMask s).1)
  | .rdStatus    => (readStatus s).2.setResp (.byte (readStatus s).1)
  | .rdOamaddr   => (readOamaddr s).2.setResp (.byte (readOamaddr s).1)
  | .rdOamdata   => (readOamdata s).2.setResp (.byte (readOamdata s).1)
  | .rdScroll    => (readScroll s).2.setResp (.byte (readScroll s).1)
  | .rdAddr      => (readAddr s).2.setResp (.byte (readAddr s).1)
  | .rdData      => (readData s).2.setResp (.byte (readData s).1)
  | .wrCtrl v    => (writeCtrl v s).setResp .none
  | .wrMask v    => (writeMask v s).setResp .none
  | .wrStatus v  => (writeStatus v s).setResp .none
  | .wrOamaddr v => (writeOamaddr v s).setResp .none
  | .wrOamdata v => (writeOamdata v s).setResp .none
  | .wrScroll v  => (writeScroll v s).setResp .none
  | .wrAddr v    => (writeAddr v s).setResp .none
  | .wrData v    => (writeData v s).setResp .none
  | .wrDma page  => (writeDma page s).setResp .none
  | .rdDma       => (readDma s).2.setResp (.byte (readDma s).1)
  | .tick        => (clockUnit s).setResp .none
  | .frameReady  => (frameReadyQuery s).2.setResp (.ready (frameReadyQuery s).1)

theorem exec_eq (i : Instr) (s : State) : exec i s = transact (effect i) s := by cases i <;> rfl

theorem exec_live (i : Instr) {s : State} (h : s.fault = none) : exec i s = .next (effect i s) := by
  rw [exec_eq, transact_live h]

theorem exec_faulted (i : Instr) {s : State} (h : s.fault ≠ none) : exec i s = .next s := by
  rw [exec_eq, transact_faulted h]

/-- What a transaction can do: nothing on a faulted machine, its effect otherwise. -/
theorem exec_next {i : Instr} {s t : State} (h : exec i s = .next t) :
    (s.fault ≠ none ∧ t = s) ∨ (s.fault = none ∧ t = effect i s) := by
  by_cases hf : s.fault = none
  · rw [exec_live i hf] at h
    exact .inr ⟨hf, by injection h with h; exact h.symm⟩
  · rw [exec_faulted i hf] at h
    exact .inl ⟨hf, by injection h with h; exact h.symm⟩

/-- The register a transaction other than TICK and FRAME_READY reads or writes leaves the timing side
alone. -/
theorem effect_frame {i : Instr} (hi : i ≠ .tick) (hf : i ≠ .frameReady) (s : State) :
    ∃ r, AccessFrame s ((effect i s).setResp r) := by
  refine ⟨s.resp, ?_⟩
  have hr (r : Reg) (u : Response) : AccessFrame s (((readReg r s).2.setResp u).setResp s.resp) := by
    have h := readReg_frame r s
    constructor <;> simp [h.scan, h.fb, h.dot, h.line, h.ipend, h.hitcol, h.clk, h.nmiprev, h.totdots,
      h.lastrep, h.fault, h.cpu, h.params, h.script, h.s0h, h.statusLow]
    exact h.vbl
  have hw (r : Reg) (v : Byte) (u : Response) :
      AccessFrame s (((writeReg r v s).setResp u).setResp s.resp) := by
    have h := writeReg_frame r v s
    constructor <;> simp [h.scan, h.fb, h.dot, h.line, h.ipend, h.hitcol, h.clk, h.nmiprev, h.totdots,
      h.lastrep, h.fault, h.cpu, h.params, h.script, h.s0h, h.statusLow]
    exact h.vbl
  cases i with
  | rdCtrl => exact hr .ctrl _
  | rdMask => exact hr .mask _
  | rdStatus => exact hr .status _
  | rdOamaddr => exact hr .oamaddr _
  | rdOamdata => exact hr .oamdata _
  | rdScroll => exact hr .scroll _
  | rdAddr => exact hr .addr _
  | rdData => exact hr .data _
  | wrCtrl v => exact hw .ctrl v _
  | wrMask v => exact hw .mask v _
  | wrStatus v => exact hw .status v _
  | wrOamaddr v => exact hw .oamaddr v _
  | wrOamdata v => exact hw .oamdata v _
  | wrScroll v => exact hw .scroll v _
  | wrAddr v => exact hw .addr v _
  | wrData v => exact hw .data v _
  | wrDma p => simp only [effect, writeDma]; constructor <;> simp
  | rdDma => simp only [effect, readDma, draw8]; constructor <;> simp
  | tick => exact absurd rfl hi
  | frameReady => exact absurd rfl hf

/-- What a step can do: nothing with no word waiting, otherwise the transaction of the first word with the
other words left. -/
theorem step_next {s t : State} (h : step s = .next t) :
    (s.script = [] ∧ t = s) ∨
      ∃ (w : TWord) (rest : List TWord) (i : Instr), s.script = w :: rest ∧ decode w = .ok i ∧
        exec i (s.setScript rest) = .next t := by
  unfold step at h
  split at h
  · rename_i hs; injection h with h; exact .inl ⟨hs, h.symm⟩
  · rename_i w rest hs
    split at h
    · rename_i i hd; exact .inr ⟨w, rest, i, hs, hd, h⟩
    · cases h

/-- Packaged once: what every transaction's effect keeps and the queue does not matter to, every step
keeps. -/
theorem step_keeps {P : State → Prop} (hq : ∀ s l, P s → P (s.setScript l))
    (he : ∀ i s, s.fault = none → P s → P (effect i s)) {s t : State} (hs : P s)
    (h : step s = .next t) : P t := by
  rcases step_next h with ⟨-, rfl⟩ | ⟨w, rest, i, -, -, hx⟩
  · exact hs
  · rcases exec_next hx with ⟨-, rfl⟩ | ⟨hl, rfl⟩
    · exact hq s rest hs
    · exact he i _ hl (hq s rest hs)

/-! ### TICK, field by field -/

theorem effect_tick {s : State} (h : s.fault = none) :
    effect .tick s = ((unitBranch s.clk (dotStep s)).setClk (s.clk + 1)).setResp .none := by
  simp only [effect, clockUnit_live h]

/-- A unit that steps the processor (46_scheduler.md R242). -/
theorem effect_tick_stepped {s : State} (h : s.fault = none) (hd : s.dma = .inactive)
    (hk : s.clk % 3 = 0) :
    effect .tick s = ((processorStep (dotStep s)).setClk (s.clk + 1)).setResp .none := by
  rw [effect_tick h]; simp only [unitBranch, (dotStep_frame s).dma, hd, if_pos hk]

/-- The step such a unit performs is that of the processor before the dot. -/
theorem processorStep_dotStep (s : State) :
    processorStep (dotStep s) = performStep (cpuStep s.cpu) (dotStep s) := by
  unfold processorStep
  rw [(dotStep_frame s).cpu]

/-- A DMA unit (46_scheduler.md R251). -/
theorem effect_tick_dma {s : State} {page : Byte} {count : Fin 256} (h : s.fault = none)
    (hd : s.dma = .active page count) :
    effect .tick s = ((dmaByte page count (dotStep s)).setClk (s.clk + 1)).setResp .none := by
  rw [effect_tick h]; simp only [unitBranch, (dotStep_frame s).dma, hd]

theorem tick_cursor {s : State} (h : s.fault = none) :
    (effect .tick s).clk = s.clk + 1 ∧ (effect .tick s).totdots = s.totdots + 1 ∧
      (effect .tick s).dot = nextDot s.dot ∧ (effect .tick s).line = nextLine s.dot s.line := by
  rw [effect_tick h]
  refine ⟨rfl, ?_, ?_, ?_⟩
  · simp [(tick_frame s).totdots, dotStep_totdots h]
  · simp [(tick_frame s).dot, dotStep_dot h]
  · simp [(tick_frame s).line, dotStep_line h]

theorem tick_ipend {s : State} (h : s.fault = none) : (effect .tick s).ipend = (dotStep s).ipend := by
  rw [effect_tick h]; simp [(tick_frame s).ipend]

theorem tick_scan {s : State} (h : s.fault = none) : (effect .tick s).scan = (rendered s).scan := by
  rw [effect_tick h]; simp [(tick_frame s).scan, dotStep_scan h]

theorem tick_hitcol {s : State} (h : s.fault = none) :
    (effect .tick s).hitcol = (rendered s).hitcol := by
  rw [effect_tick h]; simp [(tick_frame s).hitcol, dotStep_hitcol h]

theorem tick_fb {s : State} (h : s.fault = none) : (effect .tick s).fb = (dotStep s).fb := by
  rw [effect_tick h]; simp [(tick_frame s).fb]

/-- For what the registers and the queue do not touch: what TICK keeps, every step keeps. -/
theorem step_keeps_timing {P : State → Prop} (hq : ∀ s l, P s → P (s.setScript l))
    (ha : ∀ s t, AccessFrame s t → P s → P t) (hr : ∀ s r, P (s.setResp r) ↔ P s)
    (hl : ∀ s n, P s → P (s.setLastrep n))
    (ht : ∀ s, s.fault = none → P s → P (effect .tick s)) {s t : State} (hs : P s)
    (h : step s = .next t) : P t := by
  refine step_keeps hq (fun i s hf h => ?_) hs h
  by_cases hi : i = .tick
  · subst hi; exact ht s hf h
  by_cases hf : i = .frameReady
  · subst hf; unfold effect frameReadyQuery; dsimp only; split
    · rw [hr]; exact hl _ _ h
    · rw [hr]; exact h
  · obtain ⟨r, a⟩ := effect_frame hi hf s
    exact (hr _ r).1 (ha _ _ a h)

end Sys2Proof.Machine
end

