-- ==== Sys2Proof/Laws/PerInstr.lean ====
section
/-! SUPPORT. One fact for every transaction, constructor by constructor: its word's fields pass the four
checks of 30_encoding.md R102, so no transaction is encoded as a reserved word. -/

namespace Sys2Proof.Laws.EncodesAccepted

/-- The fields of the instruction's word are accepted. -/
def Statement (i : Instr) : Prop := (fieldsOfInstr i).wellFormed = true

theorem rdCtrl : Statement .rdCtrl := rfl
theorem rdMask : Statement .rdMask := rfl
theorem rdStatus : Statement .rdStatus := rfl
theorem rdOamaddr : Statement .rdOamaddr := rfl
theorem rdOamdata : Statement .rdOamdata := rfl
theorem rdScroll : Statement .rdScroll := rfl
theorem rdAddr : Statement .rdAddr := rfl
theorem rdData : Statement .rdData := rfl
theorem wrCtrl (v : Byte) : Statement (.wrCtrl v) := rfl
theorem wrMask (v : Byte) : Statement (.wrMask v) := rfl
theorem wrStatus (v : Byte) : Statement (.wrStatus v) := rfl
theorem wrOamaddr (v : Byte) : Statement (.wrOamaddr v) := rfl
theorem wrOamdata (v : Byte) : Statement (.wrOamdata v) := rfl
theorem wrScroll (v : Byte) : Statement (.wrScroll v) := rfl
theorem wrAddr (v : Byte) : Statement (.wrAddr v) := rfl
theorem wrData (v : Byte) : Statement (.wrData v) := rfl
theorem wrDma (page : Byte) : Statement (.wrDma page) := rfl
theorem rdDma : Statement .rdDma := rfl
theorem tick : Statement .tick := rfl
theorem frameReady : Statement .frameReady := rfl

end Sys2Proof.Laws.EncodesAccepted
end

