-- ==== Sys2Proof/Laws/Render.lean ====
section
/-! SUPPORT. What the two line pipelines leave in the scanline buffer and as the hit column. -/

namespace Sys2Proof.Machine

/-! ### What each pipeline reads -/

theorem bgCell_congr {s t : State} (h1 : t.pal = s.pal) (h2 : t.cart = s.cart) (h3 : t.ctrl = s.ctrl)
    (h4 : t.scrollX = s.scrollX) (h5 : t.scrollY = s.scrollY) (y x : Nat) :
    bgCell t y x = bgCell s y x := by
  unfold bgCell bgRow bgSweep
  simp only [memRead_congr h1 h2, h3, h4, h5]

theorem spriteRecord_congr {s t : State} (h1 : t.oam = s.oam) (h2 : t.oamaddr = s.oamaddr) (k : Nat) :
    spriteRecord t k = spriteRecord s k := by
  unfold spriteRecord
  simp only [oamRead_congr h1, h2]

theorem spriteSelect_congr {s t : State} (h1 : t.oam = s.oam) (h2 : t.oamaddr = s.oamaddr) (y : Nat) :
    spriteSelect t y = spriteSelect s y := by
  unfold spriteSelect
  rw [show spriteRecord t = spriteRecord s from funext (spriteRecord_congr h1 h2)]

theorem spritePixel_congr {s t : State} (h1 : t.pal = s.pal) (h2 : t.cart = s.cart)
    (h3 : t.ctrl = s.ctrl) (y : Nat) (r : SpriteRec) (c : Nat) :
    spritePixel t y r c = spritePixel s y r c := by
  unfold spritePixel
  simp only [memRead_congr h1 h2, h3]

/-! ### The state the sprite half of a line render starts from -/

theorem background_frame (s : State) : DotFrame s (renderBackground (frameStart s)) :=
  (frameStart_frame s).trans (renderBackground_frame _)

theorem background_line (s : State) : (renderBackground (frameStart s)).line = s.line := by
  unfold renderBackground bgLine
  split <;> simp [(frameStart_cursor s).line]

theorem background_oamaddr (s : State) :
    (renderBackground (frameStart s)).oamaddr = s.oamaddr := by simp

/-- SCAN before the sprites of a line: the background's cells where BGE = 1, else what frame start
leaves. -/
theorem background_scan (s : State) {x : Nat} (hx : x < 256) :
    scanRead (renderBackground (frameStart s)).scan x =
      if maskBGE s.mask = true then bgCell s s.line.val x
      else if s.dot.val = 0 ∧ s.line.val = 0 then 0#5 else scanRead s.scan x := by
  have f := frameStart_frame s
  unfold renderBackground
  rw [f.mask]
  split
  · simp only [bgLine, State.setScan_scan]
    rw [scanRead_scanRow, if_pos hx, (frameStart_cursor s).line,
      bgCell_congr f.pal f.cart f.ctrl f.scrollX f.scrollY]
  · rw [frameStart_scan]
    split <;> rfl

theorem rendered_line {s : State} (hd : s.dot.val = 0) (hl : s.line.val < 240) :
    rendered s = if maskSPE s.mask = true then spriteLine s.line.val (renderBackground (frameStart s))
      else renderBackground (frameStart s) := by
  unfold rendered lineRender
  rw [(frameStart_cursor s).dot, (frameStart_cursor s).line, if_pos ⟨hd, hl⟩]
  unfold renderSprites
  rw [(background_frame s).mask, background_line]

/-! ### The pixel and the cell of a sprite, in numbers -/

theorem pixelColour_toNat (lo hi : Byte) (b : Nat) :
    (pixelColour lo hi b).toNat = (lo.getLsbD b).toNat + 2 * (hi.getLsbD b).toNat := by
  unfold pixelColour; cases hi.getLsbD b <;> cases lo.getLsbD b <;> rfl

/-- 43_sprites.md R186 to R188: the row, the bit and the two planes of a sprite's pixel. -/
theorem spritePixel_toNat (s : State) (y : Nat) (r : SpriteRec) (c : Nat) :
    (spritePixel s y r c).toNat = (
      let row := if r.attr.getLsbD 7 then 7 - (y - r.y.toNat) else y - r.y.toNat
      let bit := if r.attr.getLsbD 6 then c else 7 - c
      let at0 := 0x1000 * (s.ctrl.getLsbD 3).toNat + 16 * r.tile.toNat + row
      ((memRead s at0).getLsbD bit).toNat + 2 * ((memRead s (at0 + 8)).getLsbD bit).toNat) := by
  unfold spritePixel
  dsimp only
  rw [pixelColour_toNat]
  unfold patternAddr spriteRow spriteBit attrVFLIP attrHFLIP ctrlSPT
  rw [show (if s.ctrl.getLsbD 3 = true then 4096 else 0) = 0x1000 * (s.ctrl.getLsbD 3).toNat from by
    cases s.ctrl.getLsbD 3 <;> rfl]

/-- 43_sprites.md R189: a sprite's cell as a number. -/
theorem spriteCell_toNat (p : SpritePalette) (r : SpriteRec) (pix : BitVec 2) :
    (spriteCell p r pix).toNat =
      (match p with | .sprite => 16 | .background => 0) + 4 * (r.attr.toNat % 4) + pix.toNat := by
  unfold spriteCell spritePaletteBit attrPAL
  rw [BitVec.toNat_append, BitVec.toNat_append, BitVec.extractLsb'_toNat,
    show r.attr.toNat >>> 0 % 2 ^ 2 = r.attr.toNat % 4 by simp]
  have h2 := pix.isLt
  have h3 : r.attr.toNat % 4 < 4 := Nat.mod_lt _ (by omega)
  generalize r.attr.toNat % 4 = a at *
  generalize pix.toNat = q at *
  cases p <;> interval_cases a <;> interval_cases q <;> rfl

/-! ### Selection -/

theorem inRange_iff (r : SpriteRec) (y : Nat) :
    r.inRange y = true ↔ r.y.toNat ≤ y ∧ y < r.y.toNat + 8 := by
  unfold SpriteRec.inRange; simp

/-- The first `m` of `f 0, ..., f (n - 1)` that pass a test: those with fewer than `m` passing before
them. -/
theorem mem_take_filter_range {α : Type} (f : Nat → α) (p : α → Bool) (m n : Nat) (r : α) :
    r ∈ (((List.range n).map f).filter p).take m ↔
      ∃ k, k < n ∧ r = f k ∧ p r = true ∧
        ((List.range k).filter (fun j => p (f j))).length < m := by
  have hlen : ∀ n, (((List.range n).map f).filter p).length =
      ((List.range n).filter (fun j => p (f j))).length := by
    intro n
    rw [List.filter_map, List.length_map]; rfl
  induction n with
  | zero => simp
  | succ n ih =>
    rw [List.range_succ, List.map_append, List.filter_append, List.take_append, List.mem_append, hlen]
    refine (or_congr ih Iff.rfl).trans ⟨?_, ?_⟩
    · rintro (⟨k, hk, h⟩ | h)
      · exact ⟨k, by omega, h⟩
      · have h1 := List.mem_of_mem_take h
        simp only [List.map_cons, List.map_nil, List.mem_filter, List.mem_singleton] at h1
        refine ⟨n, by omega, h1.1, h1.2, ?_⟩
        by_contra hc
        rw [show m - ((List.range n).filter (fun j => p (f j))).length = 0 by omega] at h
        simp at h
    · rintro ⟨k, hk, hr, hp, hc⟩
      by_cases hkn : k = n
      · right
        subst hkn
        obtain ⟨q, hq⟩ : ∃ q, m - ((List.range k).filter (fun j => p (f j))).length = q + 1 :=
          ⟨_, (Nat.sub_add_cancel (by omega)).symm⟩
        rw [hq]
        rw [hr] at hp
        simp [hp, hr]
      · exact .inl ⟨k, by omega, hr, hp, hc⟩

/-! ### One column, one sprite -/

/-- Sprite `r` shows an opaque, unclipped pixel in screen column `x`. -/
def covers (s : State) (y : Nat) (r : SpriteRec) (x : Nat) : Bool :=
  decide (r.x.toNat ≤ x ∧ x < r.x.toNat + 8 ∧ spritePixel s y r (x - r.x.toNat) ≠ 0#2 ∧
    (8 ≤ x ∨ maskSPL s.mask = true))

theorem spriteSkips_eq_false (m : Byte) (pix : BitVec 2) (sx : Nat) :
    spriteSkips m pix sx = false ↔ pix ≠ 0#2 ∧ sx < 256 ∧ (8 ≤ sx ∨ maskSPL m = true) := by
  unfold spriteSkips
  by_cases h : sx < 8 <;> by_cases h' : sx < 256 <;> cases hm : maskSPL m <;>
    (simp [h, h'] <;> omega)

/-- What one column of one sprite does to the scanline buffer (43_sprites.md R191). -/
theorem spriteColumn_scan (s : State) (y : Nat) (r : SpriteRec) (o : Overlay) (c : Nat) {x : Nat}
    (hx : x < 256) :
    scanRead (spriteColumn s y r o c).scan x =
      if x = r.x.toNat + c ∧ spritePixel s y r c ≠ 0#2 ∧ (8 ≤ x ∨ maskSPL s.mask = true)
      then spriteCell s.params.palette r (spritePixel s y r c) else scanRead o.scan x := by
  unfold spriteColumn
  dsimp only
  cases hs : spriteSkips s.mask (spritePixel s y r c) (r.x.toNat + c) with
  | true =>
    rw [if_pos rfl, if_neg]
    rintro ⟨rfl, h2, h3⟩
    rw [(spriteSkips_eq_false _ _ _).2 ⟨h2, hx, h3⟩] at hs
    cases hs
  | false =>
    obtain ⟨h1, -, h3⟩ := (spriteSkips_eq_false _ _ _).1 hs
    rw [if_neg (by simp)]
    dsimp only
    rw [scanRead_scanWrite]
    by_cases e : x = r.x.toNat + c
    · rw [if_pos e, if_pos ⟨e, h1, by rw [e]; exact h3⟩]
    · rw [if_neg e, if_neg (fun h => e h.1)]

/-- What one sprite does to the scanline buffer. -/
theorem spriteDraw_scan (s : State) (y : Nat) (r : SpriteRec) (o : Overlay) {x : Nat} (hx : x < 256) :
    scanRead (spriteDraw s y o r).scan x =
      if covers s y r x = true then spriteCell s.params.palette r (spritePixel s y r (x - r.x.toNat))
      else scanRead o.scan x := by
  have key : ∀ n, scanRead ((List.range n).foldl (spriteColumn s y r) o).scan x =
      if r.x.toNat ≤ x ∧ x < r.x.toNat + n ∧ spritePixel s y r (x - r.x.toNat) ≠ 0#2 ∧
          (8 ≤ x ∨ maskSPL s.mask = true)
      then spriteCell s.params.palette r (spritePixel s y r (x - r.x.toNat))
      else scanRead o.scan x := by
    intro n
    induction n with
    | zero => rw [if_neg (by omega)]; rfl
    | succ n ih =>
      rw [List.range_succ, List.foldl_append]
      simp only [List.foldl_cons, List.foldl_nil]
      rw [spriteColumn_scan _ _ _ _ _ hx, ih]
      by_cases e : x = r.x.toNat + n
      · rw [show x - r.x.toNat = n by omega]
        by_cases hq : spritePixel s y r n ≠ 0#2 ∧ (8 ≤ x ∨ maskSPL s.mask = true)
        · rw [if_pos ⟨e, hq⟩, if_pos ⟨by omega, by omega, hq⟩]
        · rw [if_neg (fun h => hq h.2), if_neg (fun h => hq h.2.2), if_neg (fun h => hq h.2.2)]
      · rw [if_neg (fun h => e h.1)]
        congr 1
        refine propext ⟨?_, ?_⟩
        · rintro ⟨a, b, c⟩; exact ⟨a, by omega, c⟩
        · rintro ⟨a, b, c⟩; exact ⟨a, by omega, c⟩
  unfold spriteDraw covers
  rw [key 8]
  simp only [decide_eq_true_eq]

/-- `o` is the least number with `S`, if there is one. -/
def Least (S : Nat → Prop) (o : Option Nat) : Prop :=
  match o with
  | none => ∀ x, ¬ S x
  | some h => S h ∧ ∀ x, x < h → ¬ S x

theorem least_congr {S T : Nat → Prop} (h : ∀ x, S x ↔ T x) {o : Option Nat} (a : Least S o) :
    Least T o := by
  rwa [show T = S from funext (fun x => propext (h x).symm)]

/-- `leftmost` keeps the least of the columns seen (43_sprites.md R192). -/
theorem leftmost_least {S : Nat → Prop} {o : Option Nat} (h : Least S o) (x : Nat) :
    Least (fun z => S z ∨ z = x) (leftmost o x) := by
  cases o with
  | none => exact ⟨.inr rfl, fun z hz hc => hc.elim (h z) (by omega)⟩
  | some g =>
    unfold leftmost
    dsimp only
    split
    · exact ⟨.inr rfl, fun z hz hc => hc.elim (h.2 z (by omega)) (by omega)⟩
    · exact ⟨.inl h.1, fun z hz hc => hc.elim (h.2 z hz) (by omega)⟩

/-- What one column of one sprite does to the hit candidate: record 0 alone counts (43_sprites.md
R192). -/
theorem spriteColumn_hit (s : State) (y : Nat) (r : SpriteRec) (o : Overlay) (c : Nat)
    {S : Nat → Prop} (h : Least S o.hit) :
    Least (fun x => S x ∨ (r.k = 0 ∧ x = r.x.toNat + c ∧ spritePixel s y r c ≠ 0#2 ∧ x < 256 ∧
      (8 ≤ x ∨ maskSPL s.mask = true))) (spriteColumn s y r o c).hit := by
  unfold spriteColumn
  dsimp only
  cases hs : spriteSkips s.mask (spritePixel s y r c) (r.x.toNat + c) with
  | true =>
    rw [if_pos rfl]
    refine least_congr (fun x => ⟨.inl, fun hc => hc.elim id ?_⟩) h
    rintro ⟨-, rfl, h1⟩
    rw [(spriteSkips_eq_false _ _ _).2 h1] at hs
    cases hs
  | false =>
    rw [if_neg (by simp)]
    dsimp only
    split
    · rename_i hk
      refine least_congr (fun x => or_congr Iff.rfl ⟨fun e => ⟨hk, e, ?_⟩, fun e => e.2.1⟩)
        (leftmost_least h (r.x.toNat + c))
      rw [e]
      exact (spriteSkips_eq_false _ _ _).1 hs
    · rename_i hk
      exact least_congr (fun x => ⟨.inl, fun hc => hc.elim id (fun e => absurd e.1 hk)⟩) h

/-- What one sprite does to the hit candidate. -/
theorem spriteDraw_hit (s : State) (y : Nat) (r : SpriteRec) (o : Overlay) {S : Nat → Prop}
    (h : Least S o.hit) :
    Least (fun x => S x ∨ (r.k = 0 ∧ x < 256 ∧ covers s y r x = true)) (spriteDraw s y o r).hit := by
  have key : ∀ n, Least (fun x => S x ∨ (r.k = 0 ∧ x < 256 ∧ r.x.toNat ≤ x ∧ x < r.x.toNat + n ∧
      spritePixel s y r (x - r.x.toNat) ≠ 0#2 ∧ (8 ≤ x ∨ maskSPL s.mask = true)))
      ((List.range n).foldl (spriteColumn s y r) o).hit := by
    intro n
    induction n with
    | zero => exact least_congr (fun x => ⟨.inl, fun hc => hc.elim id (by omega)⟩) h
    | succ n ih =>
      rw [List.range_succ, List.foldl_append]
      simp only [List.foldl_cons, List.foldl_nil]
      refine least_congr (fun x => ?_) (spriteColumn_hit s y r _ n ih)
      rw [or_assoc]
      refine or_congr Iff.rfl ⟨?_, ?_⟩
      · rintro (⟨a, b, c, d, e⟩ | ⟨a, b, c, d, e⟩)
        · exact ⟨a, b, c, by omega, e⟩
        · exact ⟨a, d, by omega, by omega, by rw [show x - r.x.toNat = n by omega]; exact c, e⟩
      · rintro ⟨a, b, c, d, e, f⟩
        by_cases hn : x = r.x.toNat + n
        · rw [show x - r.x.toNat = n by omega] at e
          exact .inr ⟨a, hn, e, b, f⟩
        · exact .inl ⟨a, b, c, by omega, e, f⟩
  refine least_congr (fun x => ?_) (key 8)
  unfold covers
  simp only [decide_eq_true_eq]

end Sys2Proof.Machine
end

