-- ==== Sys2Proof/Laws/Wf.lean ====
section
/-! SUPPORT. Every operation over a memory keeps the canonical forms of `State.StoresWf`. -/

namespace Sys2Proof.Machine

theorem storesWf_congr {s t : State} (h1 : t.oam = s.oam) (h2 : t.pal = s.pal) (h3 : t.scan = s.scan)
    (h4 : t.fb = s.fb) (h5 : t.cart = s.cart) (h : s.StoresWf) : t.StoresWf := by
  unfold State.StoresWf; rw [h1, h2, h3, h4, h5]; exact h

/-- The memories at power-on are in canonical form. -/
theorem reset_storesWf : State.reset.StoresWf := by decide

theorem oamPush_storesWf {s : State} (h : s.StoresWf) (v : Byte) : (oamPush s v).StoresWf := by
  obtain ⟨a, b, c, d, e, f⟩ := h
  refine ⟨?_, b, c, d, e, f⟩
  simp only [oamPush, State.setOamaddr_oam, State.setOam_oam]
  exact cellWrite_wf a s.oamaddr.isLt v

theorem memWrite_storesWf {s : State} (h : s.StoresWf) (i : Nat) (v : Byte) :
    (memWrite s i v).StoresWf := by
  obtain ⟨a, b, c, d, e, f⟩ := h
  unfold memWrite
  split
  · refine ⟨a, ?_, ?_, d, e, f⟩
    · simp only [palWrite, State.setPal_pal]; exact cellWrite_wf b (pidx_lt _) v
    · intro c' hc'
      simp only [palWrite, State.setPal_pal] at hc'
      rcases mem_cellWrite hc' with rfl | h'
      · exact pidx_reachable _
      · exact c c' h'
  · rename_i hlt
    refine ⟨a, b, c, d, e, ?_⟩
    simp only [State.setCart_cart, writeChipSpace]
    cases hc : s.cart with
    | external => exact ⟨List.Pairwise.nil, by simp [cartCells]⟩
    | ram m => rw [hc] at f; exact cellWrite_wf f (by omega) v

theorem fbWrite_storesWf {s : State} (h : s.StoresWf) {x y : Nat} (hx : x < 256) (hy : y < 240)
    (c : Colour) : (fbWrite s x y c).StoresWf :=
  ⟨h.1, h.2.1, h.2.2.1, h.2.2.2.1,
    cellInsert_fbWf h.2.2.2.2.1 (by unfold pixelIndex; omega) c, h.2.2.2.2.2⟩

theorem readReg_storesWf {s : State} (h : s.StoresWf) (r : Reg) : (readReg r s).2.StoresWf := by
  cases r <;> exact storesWf_congr rfl rfl rfl rfl rfl h

theorem writeReg_storesWf {s : State} (h : s.StoresWf) (r : Reg) (v : Byte) :
    (writeReg r v s).StoresWf := by
  cases r
  case oamdata => exact oamPush_storesWf h v
  case data => exact storesWf_congr rfl rfl rfl rfl rfl (memWrite_storesWf h s.vaddr.toNat v)
  all_goals exact storesWf_congr rfl rfl rfl rfl rfl h

theorem dispatchRead_storesWf {s : State} (h : s.StoresWf) (a : Addr16) :
    (dispatchRead a s).2.StoresWf := by
  unfold dispatchRead
  split
  · exact readReg_storesWf h _
  split
  · exact storesWf_congr rfl rfl rfl rfl rfl h
  · unfold busRead
    split
    · exact storesWf_congr rfl rfl rfl rfl rfl h
    · exact h
    · exact h

theorem dispatchWrite_storesWf {s : State} (h : s.StoresWf) (a : Addr16) (v : Byte) :
    (dispatchWrite a v s).StoresWf := by
  unfold dispatchWrite
  split
  · exact writeReg_storesWf h _ v
  split
  · exact storesWf_congr rfl rfl rfl rfl rfl h
  · exact h

theorem runStep_storesWf {s : State} (h : s.StoresWf) (c : CpuStep) : (runStep c s).2.StoresWf :=
  runStep_keeps (P := State.StoresWf) (fun a _ h => dispatchRead_storesWf h a)
    (fun a v _ h => dispatchWrite_storesWf h a v)
    (fun _ _ h => storesWf_congr rfl rfl rfl rfl rfl h) c s h

theorem unitBranch_storesWf {s : State} (h : s.StoresWf) (k : Nat) : (unitBranch k s).StoresWf := by
  unfold unitBranch
  split
  · split
    · unfold processorStep performStep sampleNmi deliverNmi
      have := runStep_storesWf h (cpuStep s.cpu)
      split
      · exact this
      · split <;> exact storesWf_congr rfl rfl rfl rfl rfl this
    · exact h
  · exact storesWf_congr (s := oamPush _ _) rfl rfl rfl rfl rfl
      (oamPush_storesWf (dispatchRead_storesWf h _) _)

/-! ### The scanline buffer -/

theorem spriteColumn_wf (s : State) (y : Nat) (r : SpriteRec) (o : Overlay) (c : Nat)
    (h : Memory.wf 0#5 256 o.scan) : Memory.wf 0#5 256 (spriteColumn s y r o c).scan := by
  unfold spriteColumn
  dsimp only
  split
  · exact h
  · rename_i hs
    refine cellWrite_wf h ?_ _
    unfold spriteSkips at hs; simp at hs; omega

theorem foldl_keeps {α β : Type} {P : α → Prop} {f : α → β → α} (hf : ∀ a b, P a → P (f a b))
    (l : List β) (a : α) (h : P a) : P (l.foldl f a) := by
  induction l generalizing a with
  | nil => exact h
  | cons b l ih => exact ih _ (hf a b h)

theorem spriteOverlay_wf {s : State} (h : Memory.wf 0#5 256 s.scan) (y : Nat) :
    Memory.wf 0#5 256 (spriteOverlay s y).scan :=
  foldl_keeps (P := fun o : Overlay => Memory.wf 0#5 256 o.scan)
    (fun o r ho => foldl_keeps (P := fun o : Overlay => Memory.wf 0#5 256 o.scan)
      (fun o c ho => spriteColumn_wf s y r o c ho) _ o ho) _ _ h

theorem rendered_wf {s : State} (h : Memory.wf 0#5 256 s.scan) :
    Memory.wf 0#5 256 (rendered s).scan := by
  have h0 : Memory.wf 0#5 256 (frameStart s).scan := by
    rw [frameStart_scan]
    split
    · exact ⟨List.Pairwise.nil, by simp⟩
    · exact h
  unfold rendered lineRender
  split
  · have h1 : Memory.wf 0#5 256 (renderBackground (frameStart s)).scan := by
      unfold renderBackground
      split
      · exact scanRow_wf _
      · exact h0
    unfold renderSprites
    split
    · exact spriteOverlay_wf h1 _
    · exact h1
  · exact h0

end Sys2Proof.Machine
end

