-- ==== Sys2Proof/Tests/Slice0.lean ====
section
/-! SUPPORT. Small tests and witnesses. Each expected value is the spec's own: a vector of
95_test_vectors.md, or an Example of the rule named. A `witness_` theorem shows a state and operands that
meet the hypotheses of the obligation it names. -/

namespace Sys2Proof.Tests

open Sys2Proof.Machine

/-! ### Helpers -/

/-- Power-on with the fixtures RAM-CART and BUS-PAT of D57. -/
def bench : State :=
  { State.reset with cart := .ram [], params := { Params.default with bus := .pattern } }

/-- The state an outcome carries, or the given one. -/
def stateOr (d : State) (o : Host.Outcome State Fault Refusal) : State :=
  match o with
  | .next t => t
  | _ => d

/-- A state after one transaction. -/
def after (i : Instr) (s : State) : State := stateOr s (exec i s)

/-- `bench` with its cursor and clock at dot (d, l) of frame 0. -/
def benchAt (d : Fin 341) (l : Fin 262) : State :=
  { bench with dot := d, line := l, clk := 341 * l.val + d.val, totdots := 341 * l.val + d.val }

/-- Dot (d, l) of program P2: sprite 0 at (20, 10), MASK = 0x18, pattern 0x0010 = 0x80. -/
def p2At (d : Fin 341) (l : Fin 262) : State :=
  { benchAt d l with
    mask := 0x18#8
    cart := .ram [(0x0010, 0x80#8)]
    pal := [(17, 0x16#8)]
    oam := [(0, 10#8), (1, 1#8), (3, 20#8)] }

/-- Dot (0, l) of vector V-B1: tile 1 at (0, 0), pattern 0x0010 = 0x80, attribute 3, MASK = 0x08. -/
def b1At (l : Fin 262) : State :=
  { benchAt 0 l with
    mask := 0x08#8
    cart := .ram [(0x0010, 0x80#8), (0x2000, 0x01#8), (0x23C0, 0x03#8)] }

/-! ### Encoding: words written out from 30_encoding.md R100 and R101 -/

theorem test_wf_refuses_res : (⟨.window, true, 1#2, 0#3, 0#8⟩ : TFields).wellFormed = false := by decide
theorem test_wf_refuses_write : (⟨.clock, true, 0#2, 0#3, 0#8⟩ : TFields).wellFormed = false := by decide
theorem test_wf_refuses_idx :
    (⟨.dmaTrigger, false, 0#2, 1#3, 0#8⟩ : TFields).wellFormed = false := by decide
theorem test_wf_refuses_data : (⟨.window, false, 0#2, 0#3, 1#8⟩ : TFields).wellFormed = false := by decide

/-- PORT 00, W 0, RES 00, IDX 000 to 111, DATA 0x00. -/
theorem test_decode_window_reads :
    decode 0b00_0_00_000_00000000#16 = .ok .rdCtrl ∧ decode 0b00_0_00_001_00000000#16 = .ok .rdMask ∧
    decode 0b00_0_00_010_00000000#16 = .ok .rdStatus ∧
    decode 0b00_0_00_011_00000000#16 = .ok .rdOamaddr ∧
    decode 0b00_0_00_100_00000000#16 = .ok .rdOamdata ∧
    decode 0b00_0_00_101_00000000#16 = .ok .rdScroll ∧
    decode 0b00_0_00_110_00000000#16 = .ok .rdAddr ∧
    decode 0b00_0_00_111_00000000#16 = .ok .rdData := by decide

/-- PORT 00, W 1, RES 00, IDX 000 to 111, DATA v. -/
theorem test_decode_window_writes :
    decode 0b00_1_00_000_10010000#16 = .ok (.wrCtrl 0x90#8) ∧
    decode 0b00_1_00_001_00011110#16 = .ok (.wrMask 0x1E#8) ∧
    decode 0b00_1_00_010_11111111#16 = .ok (.wrStatus 0xFF#8) ∧
    decode 0b00_1_00_011_00010000#16 = .ok (.wrOamaddr 0x10#8) ∧
    decode 0b00_1_00_100_01011010#16 = .ok (.wrOamdata 0x5A#8) ∧
    decode 0b00_1_00_101_00000101#16 = .ok (.wrScroll 0x05#8) ∧
    decode 0b00_1_00_110_00100001#16 = .ok (.wrAddr 0x21#8) ∧
    decode 0b00_1_00_111_01110111#16 = .ok (.wrData 0x77#8) := by decide

/-- PORT 01 with W 1 and 0, PORT 10, PORT 11. -/
theorem test_decode_other_ports :
    decode 0b01_1_00_000_00000010#16 = .ok (.wrDma 0x02#8) ∧
    decode 0b01_0_00_000_00000000#16 = .ok .rdDma ∧
    decode 0b10_0_00_000_00000000#16 = .ok .tick ∧
    decode 0b11_0_00_000_00000000#16 = .ok .frameReady := by decide

/-- V-E1 to V-E7. -/
theorem test_decode_reserved :
    decode 0x0001#16 = .error .dataOnRead ∧ decode 0x0800#16 = .error .resNonzero ∧
    decode 0x1000#16 = .error .resNonzero ∧ decode 0x1800#16 = .error .resNonzero ∧
    decode 0x4100#16 = .error .idxOffWindow ∧ decode 0x6100#16 = .error .idxOffWindow ∧
    decode 0x8001#16 = .error .dataOnRead ∧ decode 0x8100#16 = .error .idxOffWindow ∧
    decode 0xA000#16 = .error .writeOnClockOrHost ∧ decode 0xE000#16 = .error .writeOnClockOrHost ∧
    decode 0xC001#16 = .error .dataOnRead ∧ decode 0x2A00#16 = .error .resNonzero := by decide

/-- R105: SETADDR and OAMW as words. -/
theorem test_script_words :
    scriptWords [.setAddr 0x3F04#16, .oamw 0x10#8 [1#8, 2#8], .tick 2] =
      [0x263F#16, 0x2604#16, 0x2310#16, 0x2401#16, 0x2402#16, 0x8000#16, 0x8000#16] := by decide

/-- The word a step fetches runs. -/
theorem test_step_runs_word :
    (stateOr bench (step (bench.withFetchWord 16 0x2108))).mask = 0x08#8 := by decide

/-! ### Register window and DMA trigger: 95_test_vectors.md section 2.1 -/

/-- V-R1. -/
theorem test_wrCtrl :
    (after (.wrCtrl 0x90#8) bench).ctrl = 0x90#8 ∧ ctrlNMIE 0x90#8 = true ∧ ctrlBGT 0x90#8 = true ∧
    ctrlNT 0x90#8 = 0#2 ∧ ctrlINC 0x90#8 = false ∧ ctrlSPT 0x90#8 = false ∧
    nmiOut (after (.wrCtrl 0x90#8) bench) = false := by decide

/-- V-R2. -/
theorem test_rdCtrl : (after .rdCtrl { bench with ctrl := 0x80#8 }).ctrl = 0x80#8 := rfl

/-- V-R3: the byte is the next draw. -/
theorem test_rdMask : (after .rdMask bench).resp = .byte (Config.draw8 0) := rfl
theorem test_rdOamaddr : (after .rdOamaddr bench).oamaddr = 0x00#8 := rfl
theorem test_rdScroll : (after .rdScroll bench).scrollX = 0x00#8 := rfl
theorem test_rdAddr : (after .rdAddr bench).vaddr = 0x0000#14 := rfl
theorem test_rdDma : (after .rdDma bench).dma = .inactive := rfl

/-- V-R4. -/
theorem test_wrMask :
    (after (.wrMask 0x1E#8) bench).mask = 0x1E#8 ∧ maskBGL 0x1E#8 = true ∧ maskSPL 0x1E#8 = true ∧
    maskBGE 0x1E#8 = true ∧ maskSPE 0x1E#8 = true ∧ maskGREY 0x1E#8 = false ∧
    maskEMPH 0x1E#8 = 0#3 := by decide

/-- V-R5. -/
theorem test_rdStatus_first :
    (after .rdStatus { bench with status := 0xC0#8, ipend := true }).resp = .byte 0xC0#8 ∧
    (after .rdStatus { bench with status := 0xC0#8, ipend := true }).status = 0x40#8 ∧
    (after .rdStatus { bench with status := 0xC0#8, ipend := true }).ipend = true := by decide
theorem test_rdStatus_second :
    (after .rdStatus { bench with status := 0x40#8 }).resp = .byte 0x40#8 := by decide

/-- V-R6. -/
theorem test_wrStatus : (after (.wrStatus 0xFF#8) { bench with status := 0x40#8 }).status = 0x40#8 := by
  decide

/-- L1-8, first line. -/
theorem test_wrOamaddr : (after (.wrOamaddr 0x10#8) bench).oamaddr = 0x10#8 := by decide

/-- V-R7: the cursor wraps. -/
theorem test_wrOamdata_wraps :
    oamRead (after (.wrOamdata 0x12#8) { bench with oamaddr := 0xFF#8 }) 0xFF = 0x12#8 ∧
    (after (.wrOamdata 0x12#8) { bench with oamaddr := 0xFF#8 }).oamaddr = 0x00#8 := by decide

/-- V-R8. -/
theorem test_rdOamdata :
    (after .rdOamdata { bench with oamaddr := 5#8, oam := [(5, 0x33#8)] }).resp = .byte 0x33#8 ∧
    (after .rdOamdata { bench with oamaddr := 5#8, oam := [(5, 0x33#8)] }).oamaddr = 5#8 := by decide

/-- V-R9, V-R11. -/
theorem test_wrScroll_first :
    (after (.wrScroll 5#8) bench).scrollX = 0#8 ∧ (after (.wrScroll 5#8) bench).scrollY = 5#8 := by
  decide
theorem test_wrScroll_shifts :
    (after (.wrScroll 1#8) { bench with scrollX := 7#8, scrollY := 9#8 }).scrollX = 9#8 ∧
    (after (.wrScroll 1#8) { bench with scrollX := 7#8, scrollY := 9#8 }).scrollY = 1#8 := by decide

/-- L1-1, second write, and its variant's first write. -/
theorem test_wrAddr :
    (after (.wrAddr 0x08#8) { bench with vaddr := 0x0021#14 }).vaddr = 0x2108#14 := by decide
theorem test_wrAddr_drops_high :
    (after (.wrAddr 0x21#8) { bench with vaddr := 0x3FFF#14 }).vaddr = 0x3F21#14 := by decide

/-- V-R14, V-R15: the pointer wraps at 0x4000, by 1 and by 32. -/
theorem test_rdData_wraps :
    (after .rdData { bench with vaddr := 0x3FFF#14, pal := [(31, 0x2C#8)] }).resp = .byte 0x2C#8 ∧
    (after .rdData { bench with vaddr := 0x3FFF#14 }).vaddr = 0x0000#14 := by decide
theorem test_rdData_by_32 :
    (after .rdData { bench with vaddr := 0x3FF0#14, ctrl := 0x04#8, pal := [(0, 9#8)] }).resp
      = .byte 9#8 ∧
    (after .rdData { bench with vaddr := 0x3FF0#14, ctrl := 0x04#8 }).vaddr = 0x0010#14 := by decide

/-- V-R16, V-R18: to the cartridge, and to the aliased palette cell. -/
theorem test_wrData_cart :
    (after (.wrData 0x42#8) { bench with vaddr := 0x2000#14 }).cart = .ram [(0x2000, 0x42#8)] ∧
    (after (.wrData 0x42#8) { bench with vaddr := 0x2000#14 }).vaddr = 0x2001#14 := by decide
theorem test_wrData_palette :
    (after (.wrData 0x11#8) { bench with vaddr := 0x3F10#14 }).pal = [(0, 0x11#8)] ∧
    (after (.wrData 0x11#8) { bench with vaddr := 0x3F10#14 }).vaddr = 0x3F11#14 := by decide

/-- V-D7: a second trigger restarts a transfer. -/
theorem test_wrDma_restarts :
    (after (.wrDma 0x05#8) { bench with dma := .active 2#8 10 }).dma = .active 5#8 0 := by decide

/-- V-T9, V-T10. -/
theorem test_frameReady_false : (after .frameReady { bench with totdots := 89342 }).resp = .ready false := by
  decide
theorem test_frameReady_true :
    (after .frameReady { bench with totdots := 89343 }).resp = .ready true ∧
    (after .frameReady { bench with totdots := 89343 }).lastrep = 89343 := by decide

/-! ### Rendering: 95_test_vectors.md sections 2.2 to 2.4 -/

/-- V-B1. -/
theorem test_bg_attribute :
    bgCell (b1At 0) 0 0 = 0x0D#5 ∧ bgCell (b1At 0) 0 15 = 0x0C#5 ∧ bgCell (b1At 0) 0 16 = 0x00#5 := by
  decide

/-- V-B2: fine scroll. -/
theorem test_bg_fine_scroll :
    bgCell { b1At 0 with scrollX := 1#8 } 0 0 = 0x0C#5 ∧
    bgCell { b1At 0 with scrollX := 1#8 } 0 14 = 0x0C#5 ∧
    bgCell { b1At 0 with scrollX := 1#8 } 0 15 = 0x00#5 := by decide

/-- V-B3: the four quadrants. -/
theorem test_bg_quadrants :
    bgCell { bench with cart := .ram [(0x23C0, 0xE4#8)] } 0 16 = 0x04#5 ∧
    bgCell { bench with cart := .ram [(0x23C0, 0xE4#8)] } 16 0 = 0x08#5 ∧
    bgCell { bench with cart := .ram [(0x23C0, 0xE4#8)] } 16 16 = 0x0C#5 := by decide

/-- V-B6's memory: the half toggle at h = 256. -/
def halfToggle : State :=
  { bench with scrollX := 248#8, cart := .ram [(0x0010, 0x80#8), (0x2400, 1#8), (0x27C0, 2#8)] }
theorem test_bg_half_toggle :
    bgCell halfToggle 0 7 = 0x00#5 ∧ bgCell halfToggle 0 8 = 0x09#5 ∧ bgCell halfToggle 0 9 = 0x08#5 ∧
    bgCell halfToggle 0 24 = 0x00#5 := by decide

/-- V-B9, V-B10: rows 30 and 32 do not wrap. -/
theorem test_bg_rows_unwrapped :
    bgCell { bench with scrollY := 240#8, cart := .ram [(0x0010, 0x80#8), (0x23C0, 1#8)] } 0 0 = 1#5 ∧
    bgCell { bench with scrollY := 255#8, cart := .ram [(0x0010, 0x80#8), (0x2800, 1#8)] } 1 0 = 0#5 ∧
    bgCell { bench with scrollY := 255#8, cart := .ram [(0x0010, 0x80#8), (0x2400, 1#8)] } 1 0 = 5#5 := by
  decide

/-- V-B5, V-B11: the high plane, and the other pattern table. -/
theorem test_bg_planes :
    bgCell { bench with cart := .ram [(0x0018, 0x80#8), (0x2000, 1#8)] } 0 0 = 2#5 ∧
    bgCell { bench with ctrl := 0x10#8, cart := .ram [(0x1010, 0x80#8), (0x2000, 1#8)] } 0 0 = 1#5 := by
  decide

/-- V-S1, V-S2: the selected sprite's cell and the hit column. -/
theorem test_sprite_hit :
    (spriteOverlay (p2At 0 10) 10).scan = [(20, 0x11#5)] ∧
    hitColumn (spriteOverlay (p2At 0 10) 10).hit = some 20 ∧
    (spriteOverlay (p2At 0 10) 18).hit = none := by decide

/-- V-S5, V-S4: horizontal and vertical flip. -/
theorem test_sprite_flips :
    (spriteOverlay { p2At 0 10 with oam := [(0, 10#8), (1, 1#8), (2, 0x40#8), (3, 20#8)] } 10).scan
      = [(27, 0x11#5)] ∧
    (spriteOverlay { p2At 0 10 with oam := [(0, 10#8), (1, 1#8), (2, 0x80#8), (3, 20#8)] } 17).scan
      = [(20, 0x11#5)] := by decide

/-- V-S8's and V-S11's sprite 0: the left columns are clipped, and column 255 is no hit. -/
def leftSprite : State :=
  { p2At 0 10 with cart := .ram [(0x0010, 0xFF#8)], oam := [(0, 10#8), (1, 1#8), (3, 4#8)] }
def rightSprite : State := { p2At 0 10 with oam := [(0, 10#8), (1, 1#8), (3, 255#8)] }
theorem test_sprite_edges :
    hitColumn (spriteOverlay leftSprite 10).hit = some 8 ∧
    scanRead (spriteOverlay leftSprite 10).scan 7 = 0x00#5 ∧
    hitColumn (spriteOverlay rightSprite 10).hit = none ∧
    (spriteOverlay rightSprite 10).scan = [(255, 0x11#5)] := by decide

/-- V-S12: first_wins, and last_wins. -/
def twoSprites : State :=
  { p2At 0 10 with
    cart := .ram [(0x0010, 0x80#8), (0x0020, 0x80#8), (0x0028, 0x80#8)]
    oam := [(0, 10#8), (1, 1#8), (3, 20#8), (4, 10#8), (5, 2#8), (7, 20#8)] }
theorem test_sprite_priority :
    (spriteOverlay twoSprites 10).scan = [(20, 0x11#5)] ∧
    (spriteOverlay { twoSprites with params := { Params.default with priority := .lastWins } } 10).scan
      = [(20, 0x13#5)] := by decide

/-- V-S6: the palette half. -/
theorem test_sprite_palette :
    spriteCell .sprite ⟨0, 10#8, 1#8, 0x03#8, 20#8⟩ 1#2 = 0x1D#5 ∧
    spriteCell .background ⟨0, 10#8, 1#8, 0x03#8, 20#8⟩ 1#2 = 0x0D#5 := by decide

/-- V-C1, V-C4, V-C5. -/
theorem test_resolve :
    resolveCell { bench with pal := [(13, 0x16#8)] } 0x0D#5 = Config.masterColours 0x16 ∧
    resolveCell { bench with pal := [(0, 0x0F#8)] } 0x1C#5 = Config.masterColours 0x0F ∧
    resolveCell { bench with pal := [(1, 0xFF#8)] } 0x01#5 = Config.masterColours 0x3F := ⟨rfl, rfl, rfl⟩

/-! ### The parts of a clock unit: 95_test_vectors.md sections 2.3 to 2.6 -/

/-- V-S1, dot (20, 10): S0H is set where the dot is the remembered column. -/
theorem test_sprite_zero_check :
    (spriteZeroCheck { p2At 20 10 with hitcol := some 20 }).status = 0x40#8 ∧
    (spriteZeroCheck { p2At 21 10 with hitcol := some 20 }).status = 0x00#8 := by decide

/-- P2, dot (20, 10): the pixel. -/
theorem test_pixel :
    fbRead (pixel 20 10 { p2At 20 10 with scan := [(20, 0x11#5)] }) 20 10 = Config.masterColours 0x16 := rfl

/-- V-T14: frame start clears both flags and IPEND, and HITCOL survives it. -/
theorem test_frame_start :
    (frameStart { bench with status := 0xC0#8, ipend := true, hitcol := some 20 }).status = 0#8 ∧
    (frameStart { bench with status := 0xC0#8, ipend := true, hitcol := some 20 }).ipend = false ∧
    (frameStart { bench with status := 0xC0#8, ipend := true, hitcol := some 20 }).hitcol = some 20 := by
  decide

/-- V-T6, V-T8: the hblank reset of OAMADDR. -/
theorem test_hblank_reset :
    (hblankReset { benchAt 301 5 with mask := 0x10#8, oamaddr := 0x40#8 }).oamaddr = 0x00#8 ∧
    (hblankReset { benchAt 255 5 with mask := 0x10#8, oamaddr := 0x40#8 }).oamaddr = 0x40#8 ∧
    (hblankReset { benchAt 301 240 with mask := 0x10#8, oamaddr := 0x40#8 }).oamaddr = 0x40#8 := by decide

/-- Units 340 and 89341: the cursor wraps. -/
theorem test_cursor_wraps :
    (advanceCursor (benchAt 340 0)).dot = 0 ∧ (advanceCursor (benchAt 340 0)).line = 1 ∧
    (advanceCursor (benchAt 340 261)).line = 0 := by decide

/-- L1-7, the last byte of a transfer: byte 255 of page 2. -/
theorem test_dma_last :
    (dmaByte 2#8 255 { bench with oamaddr := 0xFF#8 }).oam = [(255, 0xFD#8)] ∧
    (dmaByte 2#8 255 { bench with oamaddr := 0xFF#8 }).dma = .inactive ∧
    (dmaByte 2#8 255 { bench with oamaddr := 0xFF#8 }).oamaddr = 0#8 := by decide

/-- V-D8, byte 7 of page 0x20: a DMA read of DATA. -/
theorem test_dma_reads_data :
    (dmaByte 0x20#8 7 { bench with vaddr := 0x3F00#14, pal := [(0, 0x0F#8)] }).oam = [(0, 0x0F#8)] ∧
    (dmaByte 0x20#8 7 { bench with vaddr := 0x3F00#14, pal := [(0, 0x0F#8)] }).vaddr = 0x3F01#14 := by
  decide

/-- V-D4: a processor write to the trigger. -/
theorem test_cpu_trigger :
    (processorStep { bench with cpu := .oneShot 0x4014#16 2#8 0 0 }).dma = .active 2#8 0 := by decide

/-- V-R22, V-R23: raw addresses alias mod 8. -/
theorem test_cpu_alias :
    (processorStep { bench with cpu := .oneShot 0x2008#16 0x80#8 0 0 }).ctrl = 0x80#8 ∧
    (processorStep { bench with cpu := .oneShot 0x3FFF#16 0x55#8 0 0, vaddr := 0x2000#14 }).cart
      = .ram [(0x2000, 0x55#8)] := by decide

/-- R246: a step that ends with busy = true is no boundary, so NMIPREV stays; one that ends with busy =
false is, and raises. -/
theorem test_busy_is_no_boundary :
    (performStep (.done (.nop 1 0) true) { bench with ctrl := 0x80#8, ipend := true }).nmiprev = false ∧
    (performStep (.done (.nop 1 0) true) { bench with ctrl := 0x80#8, ipend := true }).cpu = .nop 1 0 ∧
    (performStep (.done (.nop 1 0) false) { bench with ctrl := 0x80#8, ipend := true }).cpu = .nop 1 1 :=
  ⟨rfl, rfl, rfl⟩

/-! ### TICK -/

/-- P2, unit 3410: line 10 is rendered. -/
theorem test_tick_renders_line :
    (after .tick (p2At 0 10)).scan = [(20, 0x11#5)] ∧ (after .tick (p2At 0 10)).hitcol = some 20 := by
  decide +kernel

/-- P4, unit 82182: vblank entry, and its boundary raises one NMI. -/
theorem test_tick_vblank :
    (after .tick { benchAt 1 241 with ctrl := 0x80#8 }).status = 0x80#8 ∧
    (after .tick { benchAt 1 241 with ctrl := 0x80#8 }).ipend = true ∧
    (after .tick { benchAt 1 241 with ctrl := 0x80#8 }).cpu = .nop 1 1 ∧
    (after .tick { benchAt 1 241 with ctrl := 0x80#8 }).nmiprev = true := by decide +kernel

/-! ### Witnesses -/

theorem witness_AcceptedWordReencodes : decode 0x2621#16 = .ok (.wrAddr 0x21#8) := by decide

theorem witness_StepRunsDecodedWord :
    (bench.setScript [0x8000#16]).script = [0x8000#16] ∧ decode 0x8000#16 = .ok .tick ∧
    decodeTableWord 16 0x8000 = some .tick := by decide

theorem witness_ReservedWordRefused :
    (bench.setScript [0x0001#16]).script = [0x0001#16] ∧ decode 0x0001#16 = .error .dataOnRead := by decide

theorem witness_NoWordLeavesState : bench.script = [] := rfl

theorem witness_FaultedMachineQuiescent : (bench.setFault (some (.fbBounds 0 240))).fault ≠ none := by
  decide

theorem witness_WriteOnlyReadsDraw : bench.Live ∧ (.rdDma : Instr) = .rdDma := ⟨rfl, rfl⟩

/-- `Live` is the whole hypothesis, with both flags set and with none. -/
theorem witness_ReadStatusClearsOnlyVbl : (bench.setStatus 0xC0#8).Live ∧ bench.Live := ⟨rfl, rfl⟩

theorem witness_ReadOamdataKeepsCursor : (bench.setOamaddr 0xFF#8).Live := rfl

theorem witness_ReadDataReturnsAtOnce :
    (bench.setVaddr 0x3FFF#14).Live ∧ ((bench.setVaddr 0x3FFF#14).setCtrl 0x04#8).Live := ⟨rfl, rfl⟩

theorem witness_StoringWritesStore : bench.Live := rfl

theorem witness_WriteStatusDiscarded : (bench.setStatus 0x40#8).Live := rfl

theorem witness_WriteOamdataStoresAndIncrements :
    (bench.setOamaddr 0xFF#8).Live ∧ (255 : Nat) < 256 := by decide

theorem witness_WriteScrollShiftsLatch : ((bench.setScrollX 7#8).setScrollY 9#8).Live := rfl

theorem witness_WriteAddrShiftsPointer : (bench.setVaddr 0x3FFF#14).Live := rfl

/-- Either side of 0x3F00, and RAM-CART. -/
theorem witness_WriteDataStoresAndAdvances :
    (bench.setVaddr 0x3EFF#14).Live ∧ (bench.setVaddr 0x3EFF#14).vaddr.toNat < 0x3F00 ∧
    (bench.setVaddr 0x3F00#14).Live ∧ 0x3F00 ≤ (bench.setVaddr 0x3F00#14).vaddr.toNat ∧
    bench.cart = .ram [] ∧ (0x3FFF : Nat) < 0x4000 := by decide

theorem witness_DataPortIncrement :
    bench.Live ∧ (bench.setCtrl 0x04#8).Live ∧ (.rdData : Instr) = .rdData := ⟨rfl, rfl, rfl⟩

theorem witness_WriteDmaActivates : (bench.setDma (.active 2#8 10)).Live := rfl

theorem witness_FrameReadyIsStrict :
    ({ bench with totdots := 89343 } : State).Live ∧
    ({ bench with totdots := 89343 } : State).totdots > bench.lastrep + 89342 ∧
    ({ bench with totdots := 89342 } : State).totdots ≤ bench.lastrep + 89342 := by decide

theorem witness_SetAddrFromAnywhere :
    (bench.setVaddr 0x3FFF#14).Live ∧ (bench.setVaddr 0x3FFF#14).script = [] := ⟨rfl, rfl⟩

theorem witness_MemReadMap :
    0x3F00 ≤ 0x3F00 % 0x4000 ∧ 0x3EFF % 0x4000 < 0x3F00 ∧ 0x3F00 ≤ 0x7FFF % 0x4000 ∧
    0x4000 % 0x4000 < 0x3F00 := by decide

/-- An address that aliases to PAL[0], the first palette address, and 0x3F21, a mirror of PAL[1]. -/
theorem witness_PaletteAliasing :
    (bench.setVaddr 0x3F1C#14).Live ∧ 0x3F00 ≤ (bench.setVaddr 0x3F1C#14).vaddr.toNat ∧
    (bench.setVaddr 0x3F1C#14).vaddr.toNat % 4 = 0 ∧ (bench.setVaddr 0x3F00#14).Live ∧
    0x3F00 ≤ (bench.setVaddr 0x3F00#14).vaddr.toNat ∧ (bench.setVaddr 0x3F21#14).Live ∧
    0x3F00 ≤ (bench.setVaddr 0x3F21#14).vaddr.toNat ∧ pidx 0x3F21 = 1 ∧ 0x3F00 ≤ 0x3FFF ∧
    0x3FFF < 0x4000 := by decide

theorem witness_VideoReadAfterWrite : bench.cart = .ram [] := rfl

theorem witness_WindowAliasesModEight :
    inWindow bench.params 0x2000#16 = true ∧ inWindow bench.params 0x3FFF#16 = true ∧
    bench.Live ∧ bench.params.window = Params.default.window := by decide

/-- The trigger, and the addresses on the two sides of the window, on each kind of bus. -/
theorem witness_DispatcherOutsideWindow :
    inWindow bench.params 0x4014#16 = false ∧ 0x4014#16 = bench.params.dmaTrigger ∧
    inWindow bench.params 0x1FFF#16 = false ∧ 0x1FFF#16 ≠ bench.params.dmaTrigger ∧
    inWindow bench.params 0x4000#16 = false ∧ 0x4000#16 ≠ bench.params.dmaTrigger ∧
    bench.params.bus = .pattern ∧ State.reset.params.bus = .draw ∧
    inWindow { Params.default with bus := .external } 0x4014#16 = false := by decide

/-- The corners of the grid, and a transaction that is no TICK. -/
theorem witness_TickAdvancesClockAndCursor :
    (benchAt 340 261).Live ∧ (benchAt 340 0).Live ∧ (benchAt 339 261).Live ∧
    (.rdStatus : Instr) ≠ .tick ∧ exec .rdStatus bench = .next (after .rdStatus bench) :=
  ⟨rfl, rfl, rfl, by decide, rfl⟩

theorem witness_TickFrame : (benchAt 0 0).Live ∧ (p2At 0 10).Live := ⟨rfl, rfl⟩

/-- The three cases: dot (0, 0), dot (1, 241), and a STATUS read. -/
theorem witness_IpendChangesOnlyAtItsDots :
    bench.Live ∧ exec .tick bench = .next (after .tick bench) ∧
    exec .tick (benchAt 1 241) = .next (after .tick (benchAt 1 241)) ∧
    exec .rdStatus bench = .next (after .rdStatus bench) := ⟨rfl, rfl, rfl, rfl⟩

theorem witness_S0hClearedOnlyAtFrameStart :
    (bench.setStatus 0x40#8).Live ∧
    exec .tick (bench.setStatus 0x40#8) = .next (after .tick (bench.setStatus 0x40#8)) ∧
    statusS0H (bench.setStatus 0x40#8).status = true ∧
    statusS0H (after .tick (bench.setStatus 0x40#8)).status = false :=
  ⟨rfl, rfl, by decide, by decide +kernel⟩

/-- Each case: the remembered column, frame start, and neither. -/
theorem witness_TickSpriteZeroFlag :
    ({ p2At 20 10 with hitcol := some 20 } : State).Live ∧
    (after .tick { p2At 20 10 with hitcol := some 20 }).hitcol.map Fin.val = some 20 ∧
    (bench.setStatus 0x40#8).Live ∧ (benchAt 256 239).Live := by decide +kernel

/-- Unit 82182 under NOP-CPU, a unit that steps no processor, and a DMA unit off the window. -/
theorem witness_TickVblankFlag :
    (benchAt 1 241).Live ∧ statusVBL (after .tick (benchAt 1 241)).status = true ∧
    (benchAt 1 241).dma = .inactive ∧ (benchAt 1 241).cpu = .nop 0 0 ∧
    (benchAt 2 241).Live ∧ (benchAt 2 241).dma = .inactive ∧ (benchAt 2 241).clk % 3 ≠ 0 ∧
    ((benchAt 1 241).setDma (.active 2#8 0)).Live ∧
    inWindow ((benchAt 1 241).setDma (.active 2#8 0)).params (dmaSource 2#8 0) = false := by
  decide +kernel

theorem witness_HitcolOnlyByEvaluator :
    exec .tick (p2At 1 10) = .next (after .tick (p2At 1 10)) ∧
    ¬((.tick : Instr) = .tick ∧ (p2At 1 10).dot.val = 0 ∧ (p2At 1 10).line.val < 240 ∧
      maskSPE (p2At 1 10).mask = true) := ⟨rfl, by decide⟩

/-- The last visible dot, the dot after it, and another cell. -/
theorem witness_TickWritesThePixel :
    (benchAt 255 239).Live ∧ (benchAt 255 239).dot.val < 256 ∧ (benchAt 255 239).line.val < 240 ∧
    (benchAt 256 239).Live ∧ ¬(254 = (benchAt 255 239).dot.val ∧ 239 = (benchAt 255 239).line.val) := by
  decide

/-- Columns 7 and 8 lie on the two sides of the half toggle. -/
theorem witness_BackgroundLineFormula :
    ((b1At 239).setScrollX 248#8).Live ∧ (b1At 239).dot.val = 0 ∧ (b1At 239).line.val < 240 ∧
    maskBGE (b1At 239).mask = true ∧ maskSPE (b1At 239).mask = false ∧ 248 + 7 < 256 ∧
    256 ≤ 248 + 8 := by decide

theorem witness_ScanKeptWithoutPipelines :
    (benchAt 0 240).Live ∧ 240 ≤ (benchAt 0 240).line.val ∧ (benchAt 1 0).dot.val ≠ 0 ∧
    (benchAt 0 239).Live ∧ (benchAt 0 239).dot.val = 0 ∧ (benchAt 0 239).line.val < 240 ∧
    maskBGE (benchAt 0 239).mask = false ∧ maskSPE (benchAt 0 239).mask = false := by decide

/-- Under both priorities, with two sprites that meet in column 20. -/
theorem witness_SpriteOverlayWinner :
    twoSprites.Live ∧ twoSprites.dot.val = 0 ∧ twoSprites.line.val < 240 ∧
    maskSPE twoSprites.mask = true ∧ twoSprites.params.priority = .firstWins ∧
    ({ twoSprites with params := { Params.default with priority := .lastWins } } : State).Live ∧
    (255 : Nat) < 256 := by decide

theorem witness_SpriteHitColumn :
    (p2At 0 10).Live ∧ (p2At 0 10).dot.val = 0 ∧ (p2At 0 10).line.val < 240 ∧
    maskSPE (p2At 0 10).mask = true ∧ (after .tick (p2At 0 10)).hitcol = some 20 := by decide +kernel

/-- Dots 255 and 256 lie on the two sides of the hblank window. -/
theorem witness_GatedUnitFrame :
    (p2At 255 239).Live ∧ (p2At 255 239).dma = .inactive ∧ (p2At 255 239).clk % 3 ≠ 0 ∧
    (p2At 256 239).Live ∧ (p2At 256 239).dma = .inactive ∧ (p2At 256 239).clk % 3 ≠ 0 := by decide

/-- With and without a rising edge, and on the two sides of the hblank window. -/
theorem witness_NopCpuBoundary :
    ({ benchAt 1 241 with ctrl := 0x80#8 } : State).Live ∧ (benchAt 1 241).dma = .inactive ∧
    (benchAt 1 241).clk % 3 = 0 ∧ (benchAt 1 241).cpu = .nop 0 0 ∧
    ({ benchAt 1 241 with ctrl := 0x80#8, nmiprev := true } : State).Live ∧
    (p2At 256 238).Live ∧ (p2At 256 238).clk % 3 = 0 ∧ (p2At 253 238).Live ∧
    (p2At 253 238).clk % 3 = 0 := by decide

theorem witness_ProcessorTriggerStartsDma :
    ({ bench with cpu := .oneShot 0x4014#16 2#8 0 0 } : State).Live ∧ bench.dma = .inactive ∧
    bench.clk % 3 = 0 ∧ inWindow bench.params bench.params.dmaTrigger = false ∧
    ({ bench with cpu := .oneShot 0x4014#16 2#8 0 0 } : State).cpu
      = .oneShot bench.params.dmaTrigger 2#8 0 0 ∧
    cpuStep (.oneShot bench.params.dmaTrigger 2#8 0 0)
      = .write bench.params.dmaTrigger 2#8 (.done (.oneShot 0x4014#16 2#8 1 0) false) :=
  ⟨rfl, rfl, rfl, by decide, rfl, rfl⟩

theorem witness_CtrlWriteSeenBySample :
    ({ bench with cpu := .oneShot 0x2008#16 0x80#8 0 0 } : State).Live ∧ bench.dma = .inactive ∧
    bench.clk % 3 = 0 ∧ inWindow bench.params 0x2008#16 = true ∧ (0x2008#16).toNat % 8 = 0 ∧
    cpuStep (.oneShot 0x2008#16 0x80#8 0 0)
      = .write 0x2008#16 0x80#8 (.done (.oneShot 0x2008#16 0x80#8 1 0) false) :=
  ⟨rfl, rfl, rfl, by decide, by decide, rfl⟩

/-- Bytes 254 and 255: the counter goes on, and the transfer ends. -/
theorem witness_DmaUnitMovesOneByte :
    (bench.setDma (.active 2#8 254)).Live ∧ (bench.setDma (.active 2#8 255)).Live ∧
    bench.params.bus = .pattern ∧ inWindow bench.params (dmaSource 2#8 254) = false ∧
    inWindow bench.params (dmaSource 2#8 255) = false ∧
    dmaSource 2#8 254 ≠ bench.params.dmaTrigger ∧ dmaSource 2#8 255 ≠ bench.params.dmaTrigger := by decide

/-- V-D8 and its page: bytes 0, 2, 4 and 7 of page 0x20, and the window's last address. -/
theorem witness_DmaReadsDataRegister :
    (bench.setDma (.active 0x20#8 7)).Live ∧ inWindow bench.params (dmaSource 0x20#8 7) = true ∧
    (bench.setDma (.active 0x20#8 2)).Live ∧ inWindow bench.params (dmaSource 0x20#8 2) = true ∧
    (bench.setDma (.active 0x20#8 4)).Live ∧ inWindow bench.params (dmaSource 0x20#8 4) = true ∧
    (bench.setDma (.active 0x20#8 0)).Live ∧ inWindow bench.params (dmaSource 0x20#8 0) = true ∧
    (bench.setDma (.active 0x3F#8 255)).Live ∧ inWindow bench.params (dmaSource 0x3F#8 255) = true ∧
    (255 : Fin 256).val % 8 = 7 := by decide

theorem witness_DmaCopiesPageInOrder :
    (bench.setDma (.active 2#8 0)).Live ∧ maskSPE bench.mask = false ∧ bench.params.bus = .pattern ∧
    ∀ c : Fin 256, inWindow bench.params (dmaSource 2#8 c) = false ∧
      dmaSource 2#8 c ≠ bench.params.dmaTrigger := by decide +kernel

/-- A step that writes a store. -/
theorem witness_StepKeepsStores :
    (bench.setScript [0x2412#16]).StoresWf ∧
    step (bench.setScript [0x2412#16]) = .next (after (.wrOamdata 0x12#8) (bench.setScript [])) :=
  ⟨by decide, rfl⟩

theorem witness_StepKeepsGrid :
    ((benchAt 340 261).setScript [0x8000#16]).OnGrid ∧
    step ((benchAt 340 261).setScript [0x8000#16]) = .next (after .tick (benchAt 340 261)) :=
  ⟨by decide, rfl⟩

theorem witness_StepKeepsIpendWindow :
    (benchAt 1 241).OnGrid ∧ (benchAt 1 241).IpendWindow ∧
    step ((benchAt 1 241).setScript [0x8000#16]) = .next (after .tick (benchAt 1 241)) :=
  ⟨by decide, by decide, rfl⟩

theorem witness_StepKeepsFbProgress :
    bench.OnGrid ∧ bench.FbProgress ∧ step (bench.setScript [0x8000#16]) = .next (after .tick bench) := by
  refine ⟨by decide, ?_, rfl⟩
  intro x y _ _
  simp [bench, State.reset, cellLookup]

theorem witness_StatusLowBitsStayZero :
    ((benchAt 1 241).setScript [0x8000#16]).StatusLowZero ∧
    step ((benchAt 1 241).setScript [0x8000#16]) = .next (after .tick (benchAt 1 241)) :=
  ⟨by decide, rfl⟩

theorem witness_StepKeepsVblankPending :
    ({ benchAt 2 241 with status := 0x80#8, ipend := true } : State).VblankPending ∧
    statusVBL ({ benchAt 2 241 with status := 0x80#8, ipend := true } : State).status = true ∧
    step ((benchAt 1 241).setScript [0x8000#16]) = .next (after .tick (benchAt 1 241)) :=
  ⟨by decide, by decide, rfl⟩

theorem witness_NoStepFaults : (bench.setScript [0x8000#16]).Live := rfl

theorem witness_ParametersNeverChange :
    step (bench.setScript [0x8000#16]) = .next (after .tick bench) := rfl

/-- Two states that differ in CTRL[6:5], GREY, BGL, EMPH and VTOG. -/
theorem witness_UnreadBitsHaveNoEffect :
    SameButUnread bench (((bench.setCtrl 0x60#8).setMask 0xE3#8).setVtog true) :=
  ⟨0x60#8, 0xE3#8, true, by decide, by decide, by decide, rfl⟩

end Sys2Proof.Tests
end

section
/-! Proofs about the OPEN parameters (00_scope.md R9 to R13). -/

namespace Sys2Proof.Machine

/-- A whole clock unit hands the parameters on (46_scheduler.md R240): its dot and its branch do, and CLK
and the response are other fields. -/
theorem effect_tick_params {s : State} (h : s.fault = none) : (effect .tick s).params = s.params :=
  calc (effect .tick s).params
      = (unitBranch s.clk (dotStep s)).params := by
        rw [effect_tick h, State.setResp_params, State.setClk_params]
    _ = s.params := tick_params s

/-- Settles O59: `step_keeps_timing` at "the parameters are those of `s`"; the one transaction that does
more than access a register or set LASTREP is TICK, by `effect_tick_params`. -/
theorem parametersNeverChange : Obligations.ParametersNeverChange := by
  unfold Obligations.ParametersNeverChange
  intro s t h
  refine step_keeps_timing (P := fun u => u.params = s.params) ?queue ?access ?resp ?lastrep ?tick rfl h
  case queue => exact fun u rest hu => (u.setScript_params rest).trans hu
  case access => exact fun _ _ frame hu => frame.params.trans hu
  case resp => exact fun u r => by rw [State.setResp_params]
  case lastrep => exact fun u n hu => (u.setLastrep_params n).trans hu
  case tick => exact fun _ live hu => (effect_tick_params live).trans hu

end Sys2Proof.Machine
end

section
/-! The transactions by what they do to a register: twenty of them, in six shapes. -/

namespace Sys2Proof.Machine

/-- A transaction's effect is the read or the write of a window register, the write or the read of the DMA
trigger, a clock unit or the host's query (30_encoding.md R101). -/
theorem effect_cases (i : Instr) :
    (∃ r, ∀ s, effect i s = (readReg r s).2.setResp (.byte (readReg r s).1)) ∨
    (∃ r v, ∀ s, effect i s = (writeReg r v s).setResp .none) ∨
    (∃ page, ∀ s, effect i s = (writeDma page s).setResp .none) ∨
    (∀ s, effect i s = (readDma s).2.setResp (.byte (readDma s).1)) ∨
    i = .tick ∨ i = .frameReady := by
  cases i with
  | rdCtrl => exact .inl ⟨.ctrl, fun _ => rfl⟩
  | rdMask => exact .inl ⟨.mask, fun _ => rfl⟩
  | rdStatus => exact .inl ⟨.status, fun _ => rfl⟩
  | rdOamaddr => exact .inl ⟨.oamaddr, fun _ => rfl⟩
  | rdOamdata => exact .inl ⟨.oamdata, fun _ => rfl⟩
  | rdScroll => exact .inl ⟨.scroll, fun _ => rfl⟩
  | rdAddr => exact .inl ⟨.addr, fun _ => rfl⟩
  | rdData => exact .inl ⟨.data, fun _ => rfl⟩
  | wrCtrl v => exact .inr (.inl ⟨.ctrl, v, fun _ => rfl⟩)
  | wrMask v => exact .inr (.inl ⟨.mask, v, fun _ => rfl⟩)
  | wrStatus v => exact .inr (.inl ⟨.status, v, fun _ => rfl⟩)
  | wrOamaddr v => exact .inr (.inl ⟨.oamaddr, v, fun _ => rfl⟩)
  | wrOamdata v => exact .inr (.inl ⟨.oamdata, v, fun _ => rfl⟩)
  | wrScroll v => exact .inr (.inl ⟨.scroll, v, fun _ => rfl⟩)
  | wrAddr v => exact .inr (.inl ⟨.addr, v, fun _ => rfl⟩)
  | wrData v => exact .inr (.inl ⟨.data, v, fun _ => rfl⟩)
  | wrDma page => exact .inr (.inr (.inl ⟨page, fun _ => rfl⟩))
  | rdDma => exact .inr (.inr (.inr (.inl fun _ => rfl)))
  | tick => exact .inr (.inr (.inr (.inr (.inl rfl))))
  | frameReady => exact .inr (.inr (.inr (.inr (.inr rfl))))

/-- FRAME_READY touches LASTREP alone (45_timing.md R230). -/
theorem frameReadyQuery_frame (s : State) :
    UnitFrame s ((frameReadyQuery s).2.setLastrep s.lastrep) := by
  unfold frameReadyQuery
  split <;> constructor <;> simp

/-- Every transaction but TICK leaves the timing side alone, LASTREP and the response apart. -/
theorem effect_frame_of_ne_tick {i : Instr} (hi : i ≠ .tick) (s : State) :
    UnitFrame s (((effect i s).setLastrep s.lastrep).setResp s.resp) := by
  by_cases hf : i = .frameReady
  · subst hf
    have h := frameReadyQuery_frame s
    exact { h with resp := rfl }
  · obtain ⟨_, h⟩ := effect_frame hi hf s
    exact { h.unit with lastrep := rfl, resp := rfl }

end Sys2Proof.Machine
end

section
/-! Proofs about the canonical form of the stores (10_state.md R44 to R47). -/

namespace Sys2Proof.Machine

/-- The response and the clock are no stores. -/
theorem setResp_storesWf {s : State} (h : s.StoresWf) (r : Response) : (s.setResp r).StoresWf := h

theorem setClk_storesWf {s : State} (h : s.StoresWf) (n : Nat) : (s.setClk n).StoresWf := h

/-- A dot writes SCAN by the line render and FB by the pixel, both within their forms, and no other store
(45_timing.md R221, R222, R224). -/
theorem dotStep_storesWf {s : State} (live : s.fault = none) (h : s.StoresWf) :
    (dotStep s).StoresWf := by
  obtain ⟨oam, pal, reachable, scan, fb, cart⟩ := h
  have frame := dotStep_frame s
  have hscan : Memory.wf 0#5 256 (dotStep s).scan := by
    rw [dotStep_scan live]; exact rendered_wf scan
  have hfb : Memory.fbWf (dotStep s).fb := by
    rw [dotStep_fb live]
    split
    · rename_i visible
      exact cellInsert_fbWf fb (pixelIndex_lt visible.1 visible.2) _
    · exact fb
  exact ⟨frame.oam ▸ oam, frame.pal ▸ pal, frame.pal ▸ reachable, hscan, hfb, frame.cart ▸ cart⟩

/-- Every transaction keeps the stores' form: an access by the laws of the registers, TICK by its dot and
its branch, and FRAME_READY touches no store. -/
theorem effect_storesWf (i : Instr) {s : State} (live : s.fault = none) (h : s.StoresWf) :
    (effect i s).StoresWf := by
  obtain ⟨r, e⟩ | ⟨r, v, e⟩ | ⟨page, e⟩ | e | rfl | rfl := effect_cases i
  · rw [e]; exact setResp_storesWf (readReg_storesWf h r) _
  · rw [e]; exact setResp_storesWf (writeReg_storesWf h r v) _
  · rw [e]; exact h
  · rw [e]; exact h
  · rw [effect_tick live]
    exact setResp_storesWf (setClk_storesWf (unitBranch_storesWf (dotStep_storesWf live h) _) _) _
  · unfold effect frameReadyQuery
    dsimp only
    split <;> exact h

/-- Settles O52: the queue is no store, and every transaction's effect keeps the form. -/
theorem stepKeepsStores : Obligations.StepKeepsStores := by
  unfold Obligations.StepKeepsStores
  intro s t hs h
  exact step_keeps (P := State.StoresWf) (fun _ _ hu => hu)
    (fun i _ live hu => effect_storesWf i live hu) hs h

end Sys2Proof.Machine
end

section
/-! Proofs about IPEND, STATUS, HITCOL and the data port's increment (10_state.md R23, R38, R39, R49,
R50). -/

namespace Sys2Proof.Machine

/-- S0H after TICK is what the dot leaves: the branch reads STATUS at most (41_registers.md R124). -/
theorem tick_s0h {s : State} (live : s.fault = none) :
    statusS0H (effect .tick s).status = statusS0H (dotStep s).status := by
  rw [effect_tick live, State.setResp_status, State.setClk_status, (tick_frame s).s0h]

/-- TICK keeps STATUS[5:0]: its dot and its branch do. -/
theorem tick_statusLow {s : State} (live : s.fault = none) :
    (effect .tick s).status.extractLsb' 0 6 = s.status.extractLsb' 0 6 := by
  rw [effect_tick live, State.setResp_status, State.setClk_status, (tick_frame s).statusLow,
    (dotStep_frame s).statusLow]

/-- A video write leaves the data port's pointer and CTRL (20_memory.md R65). -/
theorem memWrite_vaddr (s : State) (a : Nat) (v : Byte) : (memWrite s a v).vaddr = s.vaddr := by
  unfold memWrite; split <;> rfl

theorem memWrite_ctrl (s : State) (a : Nat) (v : Byte) : (memWrite s a v).ctrl = s.ctrl := by
  unfold memWrite; split <;> rfl

theorem writeData_vaddr (s : State) (v : Byte) :
    (writeData v s).vaddr = s.vaddr + dataIncrement (ctrlINC s.ctrl) := by
  unfold writeData advanceVaddr
  rw [State.setVaddr_vaddr, memWrite_vaddr, memWrite_ctrl]

/-- Settles O32: TICK by the dot's rule for IPEND, every other transaction by its frame. -/
theorem ipendChangesOnlyAtItsDots : Obligations.IpendChangesOnlyAtItsDots := by
  unfold Obligations.IpendChangesOnlyAtItsDots
  refine ⟨rfl, fun i s t live h => ?_⟩
  rw [exec_live i live] at h
  cases h
  by_cases hi : i = .tick
  · subst hi
    rw [tick_ipend live, dotStep_ipend live]
    simp
  · have keeps : (effect i s).ipend = s.ipend := (effect_frame_of_ne_tick hi s).ipend
    simp [hi, keeps]

/-- Settles O33: no transaction but TICK changes S0H, and a dot clears it at frame start alone. -/
theorem s0hClearedOnlyAtFrameStart : Obligations.S0hClearedOnlyAtFrameStart := by
  unfold Obligations.S0hClearedOnlyAtFrameStart
  refine ⟨fun _ => rfl, fun i s t live h was now => ?_⟩
  rw [exec_live i live] at h
  cases h
  by_cases hi : i = .tick
  · subst hi
    refine ⟨rfl, ?_⟩
    rw [tick_s0h live, dotStep_s0h live] at now
    by_contra notStart
    rw [if_neg notStart, was] at now
    simp at now
  · have keeps : statusS0H (effect i s).status = statusS0H s.status :=
      (effect_frame_of_ne_tick hi s).s0h
    rw [keeps, was] at now
    cases now

/-- Settles O36: a faulted machine stays, TICK writes HITCOL by the evaluator alone, and every other
transaction keeps it by its frame. -/
theorem hitcolOnlyByEvaluator : Obligations.HitcolOnlyByEvaluator := by
  unfold Obligations.HitcolOnlyByEvaluator
  refine ⟨rfl, fun i s t h notEvaluated => ?_⟩
  obtain ⟨-, rfl⟩ | ⟨live, rfl⟩ := exec_next h
  · rfl
  by_cases hi : i = .tick
  · subst hi
    rw [tick_hitcol live]
    exact rendered_hitcol fun evaluated => notEvaluated ⟨rfl, evaluated⟩
  · exact (effect_frame_of_ne_tick hi s).hitcol

/-- Settles O56: `step_keeps_timing` at "STATUS[5:0] are 0", with `tick_statusLow` for TICK. -/
theorem statusLowBitsStayZero : Obligations.StatusLowBitsStayZero := by
  unfold Obligations.StatusLowBitsStayZero
  refine ⟨by decide, fun s t hs h => ?_⟩
  refine step_keeps_timing (P := State.StatusLowZero) ?queue ?access ?resp ?lastrep ?tick hs h
  case queue => exact fun _ _ hu => hu
  case access => exact fun _ _ frame hu => frame.statusLow.trans hu
  case resp => exact fun _ _ => Iff.rfl
  case lastrep => exact fun _ _ hu => hu
  case tick => exact fun _ live hu => (tick_statusLow live).trans hu

/-- Settles O20: the read advances by the increment of CTRL as it is, and the write by the same, since the
byte it stores reaches neither CTRL nor VADDR. -/
theorem dataPortIncrement : Obligations.DataPortIncrement := by
  unfold Obligations.DataPortIncrement
  refine ⟨fun _ => rfl, fun i v s live hi => ⟨_, exec_live i live, ?_⟩⟩
  obtain rfl | rfl := hi
  · rfl
  · exact writeData_vaddr s v

end Sys2Proof.Machine
end

section
/-! Proofs about the bits that no rule reads (10_state.md R26, R27, R30, R31, R35, R42): two states that
differ in them alone still do after any operation, and the operation answers both alike. Most operations
touch neither CTRL, MASK nor VTOG; those that read CTRL or MASK read the other bits of them alone. -/

namespace Sys2Proof.Machine

/-- `s` with other bytes in CTRL and MASK and another VTOG. -/
def State.withUnread (s : State) (c m : Byte) (g : Bool) : State :=
  ((s.setCtrl c).setMask m).setVtog g

/-- `f` neither reads nor writes CTRL, MASK and VTOG, so it commutes with any change of them. One
equation of functions, which `rfl` shows where `f` does not branch on the state. -/
def Blind (f : State → State) : Prop :=
  (fun s c m g => f (State.withUnread s c m g)) = fun s c m g => (f s).withUnread c m g

/-- A blind operation keeps CTRL and MASK. -/
theorem Blind.keeps {f : State → State} (hf : Blind f) (s : State) :
    (f s).ctrl = s.ctrl ∧ (f s).mask = s.mask := by
  have h : f s = (f s).withUnread s.ctrl s.mask s.vtog :=
    congr($hf s s.ctrl s.mask s.vtog)
  rw [h]
  exact ⟨rfl, rfl⟩

/-- Two answers that are the same, with states that differ in unread bits alone. -/
def SameAnswer {α : Type} (p p' : α × State) : Prop := p'.1 = p.1 ∧ SameButUnread p.2 p'.2

/-- Bytes with a field in common agree in its bits. -/
theorem getLsbD_of_extractLsb'_eq {a b : Byte} {start len i : Nat}
    (h : a.extractLsb' start len = b.extractLsb' start len) (hi : i < len) :
    a.getLsbD (start + i) = b.getLsbD (start + i) := by
  have bit := congrArg (·.getLsbD i) h
  simpa [hi] using bit

namespace SameButUnread

variable {s s' : State}

/-! ### What the two states agree in -/

/-- A reading that commutes with every change of CTRL, MASK and VTOG finds the same in both. -/
protected theorem read {α : Type} (f : State → α) (h : SameButUnread s s')
    (hf : (fun s c m g => f (State.withUnread s c m g)) = fun s _ _ _ => f s) : f s' = f s := by
  obtain ⟨c, m, g, -, -, -, rfl⟩ := h
  exact congr($hf s c m g)

/-- CTRL[4:0] are read. -/
theorem ctrl_bit (h : SameButUnread s s') {i : Nat} (hi : i < 5) :
    s'.ctrl.getLsbD i = s.ctrl.getLsbD i := by
  obtain ⟨c, m, g, low, -, -, rfl⟩ := h
  simpa using getLsbD_of_extractLsb'_eq low hi

/-- MASK[4:2] are read. -/
theorem mask_bit (h : SameButUnread s s') {i : Nat} (hi : i < 3) :
    s'.mask.getLsbD (2 + i) = s.mask.getLsbD (2 + i) := by
  obtain ⟨c, m, g, -, -, mid, rfl⟩ := h
  exact getLsbD_of_extractLsb'_eq mid hi

protected theorem ctrlNT (h : SameButUnread s s') : ctrlNT s'.ctrl = ctrlNT s.ctrl := by
  unfold ctrlNT
  apply BitVec.eq_of_getLsbD_eq
  intro i hi
  simp [h.ctrl_bit (show i < 5 by omega)]

protected theorem ctrlINC (h : SameButUnread s s') : ctrlINC s'.ctrl = ctrlINC s.ctrl :=
  h.ctrl_bit (by decide)

protected theorem ctrlSPT (h : SameButUnread s s') : ctrlSPT s'.ctrl = ctrlSPT s.ctrl :=
  h.ctrl_bit (by decide)

protected theorem ctrlBGT (h : SameButUnread s s') : ctrlBGT s'.ctrl = ctrlBGT s.ctrl :=
  h.ctrl_bit (by decide)

protected theorem ctrlNMIE (h : SameButUnread s s') : ctrlNMIE s'.ctrl = ctrlNMIE s.ctrl := by
  obtain ⟨c, m, g, -, high, -, rfl⟩ := h
  exact high

protected theorem maskSPL (h : SameButUnread s s') : maskSPL s'.mask = maskSPL s.mask :=
  h.mask_bit (i := 0) (by decide)

protected theorem maskBGE (h : SameButUnread s s') : maskBGE s'.mask = maskBGE s.mask :=
  h.mask_bit (i := 1) (by decide)

protected theorem maskSPE (h : SameButUnread s s') : maskSPE s'.mask = maskSPE s.mask :=
  h.mask_bit (i := 2) (by decide)

protected theorem nmiOut (h : SameButUnread s s') : nmiOut s' = nmiOut s := by
  unfold nmiOut
  rw [h.ctrlNMIE, h.read State.ipend rfl]

/-! ### How operations are put together -/

/-- A blind operation takes two such states to two such states. -/
protected theorem map (f : State → State) (h : SameButUnread s s') (hf : Blind f) :
    SameButUnread (f s) (f s') := by
  obtain ⟨c, m, g, low, high, mid, rfl⟩ := h
  obtain ⟨ctrl, mask⟩ := hf.keeps s
  exact ⟨c, m, g, by rw [ctrl]; exact low, by rw [ctrl]; exact high, by rw [mask]; exact mid,
    congr($hf s c m g)⟩

/-- A branch that both states take alike. -/
protected theorem ite {p p' : Prop} [Decidable p] [Decidable p'] {t t' u u' : State} (hp : p' ↔ p)
    (ht : SameButUnread t t') (hu : SameButUnread u u') :
    SameButUnread (if p then t else u) (if p' then t' else u') := by
  by_cases hc : p
  · rwa [if_pos hc, if_pos (hp.2 hc)]
  · rwa [if_neg hc, if_neg (fun h => hc (hp.1 h))]

/-- An answer returned to the issuer of a transaction. -/
theorem respond {α : Type} {p p' : α × State} (h : SameAnswer p p') (r : α → Response) :
    SameButUnread (p.2.setResp (r p.1)) (p'.2.setResp (r p'.1)) := by
  obtain ⟨answer, same⟩ := h
  rw [answer]
  exact same.map (·.setResp (r p.1)) rfl

/-! ### The registers and the bus -/

protected theorem draw8 (h : SameButUnread s s') : SameAnswer (draw8 s) (draw8 s') :=
  ⟨h.read (fun s => (draw8 s).1) rfl, h.map (fun s => (draw8 s).2) rfl⟩

/-- The pointer advances by CTRL.INC alone. -/
protected theorem advanceVaddr (h : SameButUnread s s') :
    SameButUnread (advanceVaddr s) (advanceVaddr s') := by
  unfold advanceVaddr
  rw [h.ctrlINC]
  exact h.map (fun u => u.setVaddr (u.vaddr + dataIncrement (ctrlINC s.ctrl))) rfl

protected theorem memWrite (h : SameButUnread s s') (a : Nat) (v : Byte) :
    SameButUnread (memWrite s a v) (memWrite s' a v) :=
  .ite Iff.rfl (h.map (palWrite · (pidx (videoAddr a).toNat) v) rfl)
    (h.map (fun u => u.setCart (writeChipSpace (videoAddr a) v u.cart)) rfl)

protected theorem readReg (h : SameButUnread s s') (r : Reg) :
    SameAnswer (readReg r s) (readReg r s') := by
  cases r with
  | status => exact ⟨h.read State.status rfl, h.map (fun u => u.setStatus (clearVBL u.status)) rfl⟩
  | oamdata => exact ⟨h.read (fun s => oamRead s s.oamaddr.toNat) rfl, h⟩
  | data => exact ⟨h.read (fun s => memRead s s.vaddr.toNat) rfl, h.advanceVaddr⟩
  | ctrl | mask | oamaddr | scroll | addr => exact h.draw8

/-- A write of CTRL or MASK leaves both states with the same byte; one of ADDR flips each VTOG. -/
protected theorem writeReg (h : SameButUnread s s') (r : Reg) (v : Byte) :
    SameButUnread (writeReg r v s) (writeReg r v s') := by
  cases r with
  | ctrl =>
    obtain ⟨c, m, g, -, -, mid, rfl⟩ := h
    exact ⟨v, m, g, rfl, rfl, mid, rfl⟩
  | mask =>
    obtain ⟨c, m, g, low, high, -, rfl⟩ := h
    exact ⟨c, v, g, low, high, rfl, rfl⟩
  | addr =>
    obtain ⟨c, m, g, low, high, mid, rfl⟩ := h
    exact ⟨c, m, !g, low, high, mid, rfl⟩
  | data =>
    unfold writeReg writeData
    rw [h.read State.vaddr rfl]
    exact (h.memWrite _ v).advanceVaddr
  | status => exact h
  | oamaddr => exact h.map (writeOamaddr v) rfl
  | oamdata => exact h.map (writeOamdata v) rfl
  | scroll => exact h.map (writeScroll v) rfl

protected theorem busRead (h : SameButUnread s s') (a : Addr16) :
    SameAnswer (busRead a s) (busRead a s') := by
  unfold busRead
  rw [h.read State.params rfl]
  split
  · exact h.draw8
  · exact ⟨rfl, h⟩
  · exact ⟨rfl, h⟩

protected theorem dispatchRead (h : SameButUnread s s') (a : Addr16) :
    SameAnswer (dispatchRead a s) (dispatchRead a s') := by
  unfold dispatchRead
  rw [h.read State.params rfl]
  split
  · exact h.readReg _
  split
  · exact h.draw8
  · exact h.busRead a

protected theorem dispatchWrite (h : SameButUnread s s') (a : Addr16) (v : Byte) :
    SameButUnread (dispatchWrite a v s) (dispatchWrite a v s') := by
  unfold dispatchWrite
  rw [h.read State.params rfl]
  exact .ite Iff.rfl (h.writeReg _ v) (.ite Iff.rfl (h.map (writeDma v) rfl) h)

/-! ### The branch of a clock unit -/

/-- Every read of a processor step is answered alike, so both runs go on with the same step. -/
protected theorem runStep : ∀ (c : CpuStep) {s s' : State}, SameButUnread s s' →
    SameAnswer (runStep c s) (runStep c s')
  | .read a k, s, s', h => by
    obtain ⟨answer, same⟩ := h.dispatchRead a
    unfold runStep
    rw [answer]
    exact SameButUnread.runStep (k _) same
  | .write a v next, _, _, h => SameButUnread.runStep next (h.dispatchWrite a v)
  | .done c _, _, _, h => ⟨rfl, h.map (·.setCpu c) rfl⟩

protected theorem sampleNmi (h : SameButUnread s s') :
    SameButUnread (sampleNmi s) (sampleNmi s') := by
  rw [sampleNmi_eq, sampleNmi_eq, h.nmiOut, h.read State.nmiprev rfl]
  exact (h.map (fun u => u.setCpu
    (if nmiOut s && !s.nmiprev then cpuRaiseNmi u.cpu else u.cpu)) rfl).map
    (·.setNmiprev (nmiOut s)) rfl

protected theorem processorStep (h : SameButUnread s s') :
    SameButUnread (processorStep s) (processorStep s') := by
  unfold processorStep performStep
  rw [h.read State.cpu rfl]
  obtain ⟨busy, same⟩ := SameButUnread.runStep (cpuStep s.cpu) h
  exact .ite (by rw [busy]) same same.sampleNmi

protected theorem dmaByte (h : SameButUnread s s') (page : Byte) (count : Fin 256) :
    SameButUnread (dmaByte page count s) (dmaByte page count s') := by
  obtain ⟨byte, same⟩ := h.dispatchRead (dmaSource page count)
  unfold dmaByte
  rw [byte]
  exact (same.map (oamPush · _) rfl).map (·.setDma (nextDma page count)) rfl

protected theorem unitBranch (h : SameButUnread s s') (k : Nat) :
    SameButUnread (unitBranch k s) (unitBranch k s') := by
  unfold unitBranch
  rw [h.read State.dma rfl]
  split
  · exact .ite Iff.rfl h.processorStep h
  · exact h.dmaByte _ _

/-! ### The dot -/

protected theorem frameStart (h : SameButUnread s s') :
    SameButUnread (frameStart s) (frameStart s') :=
  .ite (by rw [h.read State.dot rfl, h.read State.line rfl])
    (h.map (fun u => ((u.setScan []).setStatus (clearS0H (clearVBL u.status))).setIpend false) rfl) h

/-- The background reads CTRL.NT and CTRL.BGT alone. -/
theorem bgCell_eq (h : SameButUnread s s') : bgCell s' = bgCell s := by
  funext y x
  unfold bgCell
  rw [h.ctrlNT, h.ctrlBGT, h.read bgRow rfl, h.read bgSweep rfl, h.read memRead rfl]

protected theorem renderBackground (h : SameButUnread s s') :
    SameButUnread (renderBackground s) (renderBackground s') := by
  unfold renderBackground bgLine
  rw [h.bgCell_eq]
  exact .ite (by rw [h.maskBGE]) (h.map (fun u => u.setScan (scanRow (bgCell s u.line.val))) rfl) h

/-- A sprite's pixel reads CTRL.SPT alone. -/
theorem spritePixel_eq (h : SameButUnread s s') : spritePixel s' = spritePixel s := by
  funext y r c
  unfold spritePixel
  rw [h.ctrlSPT, h.read memRead rfl]

/-- A sprite's clipping reads MASK.SPL alone. -/
theorem spriteSkips_eq (h : SameButUnread s s') : spriteSkips s'.mask = spriteSkips s.mask := by
  funext pix sx
  unfold spriteSkips
  rw [h.maskSPL]

theorem spriteOverlay_eq (h : SameButUnread s s') : spriteOverlay s' = spriteOverlay s := by
  have column : spriteColumn s' = spriteColumn s := by
    funext y r o c
    unfold spriteColumn
    rw [h.spritePixel_eq, h.spriteSkips_eq, h.read State.params rfl]
  funext y
  unfold spriteOverlay spriteDraw
  rw [column, h.read State.params rfl, h.read State.scan rfl, h.read spriteSelect rfl]

protected theorem renderSprites (h : SameButUnread s s') :
    SameButUnread (renderSprites s) (renderSprites s') := by
  unfold renderSprites spriteLine
  rw [h.spriteOverlay_eq]
  exact .ite (by rw [h.maskSPE]) (h.map (fun u =>
    (u.setScan (spriteOverlay s u.line.val).scan).setHitcol
      (hitColumn (spriteOverlay s u.line.val).hit)) rfl) h

protected theorem lineRender (h : SameButUnread s s') :
    SameButUnread (lineRender s) (lineRender s') :=
  .ite (by rw [h.read State.dot rfl, h.read State.line rfl]) h.renderBackground.renderSprites h

protected theorem vblankEntry (h : SameButUnread s s') :
    SameButUnread (vblankEntry s) (vblankEntry s') :=
  .ite (by rw [h.read State.dot rfl, h.read State.line rfl])
    (h.map (fun u => (u.setStatus (setVBL u.status)).setIpend true) rfl) h

protected theorem spriteZeroCheck (h : SameButUnread s s') :
    SameButUnread (spriteZeroCheck s) (spriteZeroCheck s') :=
  .ite (by rw [h.read State.dot rfl, h.read State.hitcol rfl])
    (h.map (fun u => u.setStatus (setS0H u.status)) rfl) h

protected theorem pixel (h : SameButUnread s s') (x y : Nat) :
    SameButUnread (pixel x y s) (pixel x y s') :=
  .ite Iff.rfl (h.map (raiseFault (.fbBounds x y)) rfl)
    (h.map (fun u => fbWrite u x y (resolveCell u (scanRead u.scan x))) rfl)

protected theorem visibleDot (h : SameButUnread s s') :
    SameButUnread (visibleDot s) (visibleDot s') := by
  unfold visibleDot
  rw [h.read State.dot rfl, h.read State.line rfl]
  exact .ite Iff.rfl (h.spriteZeroCheck.pixel _ _) h

protected theorem hblankReset (h : SameButUnread s s') :
    SameButUnread (hblankReset s) (hblankReset s') :=
  .ite (by rw [h.read State.dot rfl, h.read State.line rfl, h.maskSPE])
    (h.map (·.setOamaddr 0#8) rfl) h

protected theorem dotStep (h : SameButUnread s s') : SameButUnread (dotStep s) (dotStep s') := by
  have render : SameButUnread (dotRender s) (dotRender s') :=
    h.frameStart.lineRender.vblankEntry.visibleDot
  exact .ite (by rw [render.read State.fault rfl]) render (render.hblankReset.map advanceCursor rfl)

/-! ### Every transaction -/

protected theorem clockUnit (h : SameButUnread s s') :
    SameButUnread (clockUnit s) (clockUnit s') := by
  unfold clockUnit
  rw [h.dotStep.read State.fault rfl, h.read State.clk rfl]
  exact .ite Iff.rfl h.dotStep ((h.dotStep.unitBranch _).map (·.setClk (s.clk + 1)) rfl)

protected theorem frameReadyQuery (h : SameButUnread s s') :
    SameAnswer (frameReadyQuery s) (frameReadyQuery s') := by
  unfold frameReadyQuery
  rw [h.read State.totdots rfl, h.read State.lastrep rfl]
  split
  · exact ⟨rfl, h.map (·.setLastrep s.totdots) rfl⟩
  · exact ⟨rfl, h⟩

protected theorem effect (h : SameButUnread s s') (i : Instr) :
    SameButUnread (effect i s) (effect i s') := by
  have silent {u u' : State} (hu : SameButUnread u u') :
      SameButUnread (u.setResp .none) (u'.setResp .none) := hu.map (·.setResp .none) rfl
  obtain ⟨r, e⟩ | ⟨r, v, e⟩ | ⟨page, e⟩ | e | rfl | rfl := effect_cases i
  · rw [e, e]; exact respond (h.readReg r) .byte
  · rw [e, e]; exact silent (h.writeReg r v)
  · rw [e, e]; exact silent (h.map (writeDma page) rfl)
  · rw [e, e]; exact respond h.draw8 .byte
  · exact silent h.clockUnit
  · exact respond h.frameReadyQuery .ready

end SameButUnread

/-- Settles O60: both states have faulted and stay, or neither has and `SameButUnread.effect` holds. The
answers agree because `resp` is no unread bit. -/
theorem unreadBitsHaveNoEffect : Obligations.UnreadBitsHaveNoEffect := by
  unfold Obligations.UnreadBitsHaveNoEffect
  intro i s s' h
  have fault : s'.fault = s.fault := h.read State.fault rfl
  by_cases live : s.fault = none
  · exact ⟨_, _, exec_live i live, exec_live i (fault.trans live), h.effect i⟩
  · exact ⟨s, s', exec_faulted i live, exec_faulted i (fault ▸ live), h⟩

end Sys2Proof.Machine
end

section
/-! Proofs about the video address space (20_memory.md R62 to R67): the reduction of addresses, the two
ranges of the map, the palette's aliasing, and a read after a write. -/

namespace Sys2Proof.Machine

/-- The reduction of a reduced address is the reduction. -/
theorem videoAddr_mod (a : Nat) : videoAddr (a % 0x4000) = videoAddr a := by
  apply BitVec.eq_of_toNat_eq
  rw [videoAddr_toNat, videoAddr_toNat, Nat.mod_mod]

/-- The palette mirrors every 32 addresses, so the reduction mod 0x4000 does not show in its index. -/
theorem pidx_mod (a : Nat) : pidx (a % 0x4000) = pidx a := by
  unfold pidx
  rw [show a % 0x4000 % 32 = a % 32 by omega]

/-! ### The two ranges of the map -/

theorem memRead_palette (s : State) {a : Nat} (h : 0x3F00 ≤ a % 0x4000) :
    memRead s a = palRead s (pidx a) := by
  unfold memRead
  rw [videoAddr_toNat, if_pos h, pidx_mod]

theorem memRead_cart (s : State) {a : Nat} (h : a % 0x4000 < 0x3F00) :
    memRead s a = readChipSpace s.cart (videoAddr a) := by
  unfold memRead
  rw [videoAddr_toNat, if_neg (Nat.not_le.2 h)]

theorem memWrite_palette (s : State) {a : Nat} (h : 0x3F00 ≤ a % 0x4000) (v : Byte) :
    memWrite s a v = palWrite s (pidx a) v := by
  unfold memWrite
  rw [videoAddr_toNat, if_pos h, pidx_mod]

theorem memWrite_cart (s : State) {a : Nat} (h : a % 0x4000 < 0x3F00) (v : Byte) :
    memWrite s a v = s.setCart (writeChipSpace (videoAddr a) v s.cart) := by
  unfold memWrite
  rw [videoAddr_toNat, if_neg (Nat.not_le.2 h)]

/-- Settles O24: both operations see their address through `videoAddr` alone. -/
theorem videoAccessReduces : Obligations.VideoAccessReduces := by
  unfold Obligations.VideoAccessReduces
  intro s a v
  unfold memRead memWrite
  rw [videoAddr_mod]
  exact ⟨rfl, rfl⟩

/-- Settles O25. -/
theorem memReadMap : Obligations.MemReadMap := by
  unfold Obligations.MemReadMap
  intro s a
  refine ⟨fun h => ?_, memRead_cart s⟩
  rw [pidx_mod]
  exact memRead_palette s h

/-! ### The palette's aliasing -/

/-- The palette index of a cell is the one that `resolveCell_eq` gives it: a cell is below 32, so it is no
mirror. -/
theorem pidx_cell (c : Cell5) : pidx c.toNat = if c.toNat % 4 = 0 then 0 else c.toNat := by
  unfold pidx
  rw [Nat.mod_eq_of_lt c.isLt]

theorem pidx_of_group_start {a : Nat} (h : a % 4 = 0) : pidx a = 0 := by
  unfold pidx
  rw [if_pos (by omega)]

/-- A data write through the port at a palette address is a palette write at its index, and the pointer's
advance (41_registers.md R135). -/
theorem effect_wrData_palette {s : State} (h : 0x3F00 ≤ s.vaddr.toNat) (v : Byte) :
    effect (.wrData v) s = (advanceVaddr (palWrite s (pidx s.vaddr.toNat) v)).setResp .none := by
  unfold effect writeData
  dsimp only
  rw [memWrite_palette s (by rwa [Nat.mod_eq_of_lt s.vaddr.isLt])]

/-- Settles O26: reads, writes and lookups each by the lemma that puts them in terms of `pidx`. -/
theorem paletteAliasing : Obligations.PaletteAliasing := by
  unfold Obligations.PaletteAliasing
  refine ⟨fun _ => rfl, fun s a low high => ?read, fun s c => ?lookup, fun v s live high => ?write⟩
  case read => exact memRead_palette s (by rwa [Nat.mod_eq_of_lt high])
  case lookup => rw [resolveCell_eq, pidx_cell]
  case write =>
    have cells (j : Nat) : palRead (effect (.wrData v) s) j =
        if j = pidx s.vaddr.toNat then v else palRead s j := by
      rw [effect_wrData_palette high, ← palRead_palWrite]
      rfl
    refine ⟨_, exec_live (.wrData v) live, ?_, cells, fun groupStart => ?_⟩
    · rw [effect_wrData_palette high]
      rfl
    · rw [cells, pidx_of_group_start groupStart, if_pos rfl]

/-! ### A read after a write -/

/-- The cell that a video address reaches: the cartridge's bytes at their reduced addresses, then the
palette at its indices from 0x3F00 on. -/
def videoCell (a : Nat) : Nat := if a % 0x4000 < 0x3F00 then a % 0x4000 else 0x3F00 + pidx a

theorem videoCell_cart {a : Nat} (h : a % 0x4000 < 0x3F00) : videoCell a = (videoAddr a).toNat := by
  unfold videoCell
  rw [if_pos h, videoAddr_toNat]

theorem videoCell_palette {a : Nat} (h : 0x3F00 ≤ a % 0x4000) : videoCell a = 0x3F00 + pidx a := by
  unfold videoCell
  rw [if_neg (Nat.not_lt.2 h)]

/-- RAM-CART gives back what was written (92_eei_decisions.md D57). -/
theorem readChipSpace_writeChipSpace_ram (m : Memory Byte) (a b : Addr14) (v : Byte) :
    readChipSpace (writeChipSpace a v (.ram m)) b =
      if b.toNat = a.toNat then v else readChipSpace (.ram m) b :=
  cellRead_write 0#8 m a.toNat b.toNat v

/-- With RAM-CART a video write changes what is read at the addresses of its cell alone. Four cases, by
where the write and the read go: the same memory reads after its own write, the other is untouched. -/
theorem memRead_memWrite_ram {s : State} {m : Memory Byte} (ram : s.cart = .ram m) (a b : Nat)
    (v : Byte) :
    memRead (memWrite s a v) b = if videoCell a = videoCell b then v else memRead s b := by
  obtain ha | ha := Nat.lt_or_ge (a % 0x4000) 0x3F00 <;>
    obtain hb | hb := Nat.lt_or_ge (b % 0x4000) 0x3F00
  · rw [memWrite_cart s ha, memRead_cart _ hb, memRead_cart s hb, State.setCart_cart, ram,
      readChipSpace_writeChipSpace_ram, videoCell_cart ha, videoCell_cart hb]
    simp only [eq_comm]
  · have apart : videoCell a ≠ videoCell b := by
      rw [videoCell_cart ha, videoCell_palette hb, videoAddr_toNat]; omega
    rw [if_neg apart, memWrite_cart s ha, memRead_palette _ hb, memRead_palette s hb]
    rfl
  · have apart : videoCell a ≠ videoCell b := by
      rw [videoCell_palette ha, videoCell_cart hb, videoAddr_toNat]; omega
    rw [if_neg apart, memWrite_palette s ha, memRead_cart _ hb, memRead_cart s hb]
    rfl
  · rw [memWrite_palette s ha, memRead_palette _ hb, memRead_palette s hb, palRead_palWrite,
      videoCell_palette ha, videoCell_palette hb]
    simp only [Nat.add_left_cancel_iff, eq_comm]

/-- Settles O27: its two nested tests are `videoCell` of the two addresses. -/
theorem videoReadAfterWrite : Obligations.VideoReadAfterWrite := by
  unfold Obligations.VideoReadAfterWrite
  exact fun _ _ a b v ram => memRead_memWrite_ram ram a b v

end Sys2Proof.Machine
end

section
/-! Proofs about a DMA source inside the window (20_memory.md R85, 46_scheduler.md R254): the unit reads a
register after its dot, with the register's side effect, and pushes the byte into OAM. -/

namespace Sys2Proof.Machine

/-! ### What a DMA unit leaves alone, part by part -/

/-- What no part of such a unit changes: neither its dot, nor the register read, nor the push into OAM. -/
structure SourceFrame (s t : State) : Prop where
  ctrl : t.ctrl = s.ctrl
  mask : t.mask = s.mask
  scrollX : t.scrollX = s.scrollX
  scrollY : t.scrollY = s.scrollY
  vtog : t.vtog = s.vtog
  pal : t.pal = s.pal
  cart : t.cart = s.cart

theorem SourceFrame.trans {s t u : State} (a : SourceFrame s t) (b : SourceFrame t u) :
    SourceFrame s u where
  ctrl := b.ctrl.trans a.ctrl
  mask := b.mask.trans a.mask
  scrollX := b.scrollX.trans a.scrollX
  scrollY := b.scrollY.trans a.scrollY
  vtog := b.vtog.trans a.vtog
  pal := b.pal.trans a.pal
  cart := b.cart.trans a.cart

theorem DotFrame.source {s t : State} (h : DotFrame s t) : SourceFrame s t := { h with }

/-- What a register read leaves: OAM and its cursor too. -/
structure ReadFrame (s t : State) : Prop extends SourceFrame s t where
  oamaddr : t.oamaddr = s.oamaddr
  oam : t.oam = s.oam

theorem readReg_readFrame (r : Reg) (s : State) : ReadFrame s (readReg r s).2 := by
  have source : SourceFrame s (readReg r s).2 := by cases r <;> constructor <;> rfl
  cases r <;> exact { source with oamaddr := rfl, oam := rfl }

/-- What the push into OAM and the unit's counters leave: all that a register read can touch. -/
structure PushFrame (s t : State) : Prop extends SourceFrame s t where
  status : t.status = s.status
  vaddr : t.vaddr = s.vaddr
  draws : t.draws = s.draws

theorem oamPush_pushFrame (s : State) (v : Byte) (dma : Dma) (clk : Nat) (resp : Response) :
    PushFrame s ((((oamPush s v).setDma dma).setClk clk).setResp resp) where
  toSourceFrame := by constructor <;> simp [oamPush]
  status := by simp [oamPush]
  vaddr := by simp [oamPush]
  draws := by simp [oamPush]

/-! ### What a register read does -/

/-- RD_STATUS alone touches STATUS (41_registers.md R124). -/
theorem readReg_status {r : Reg} (h : r ≠ .status) (s : State) :
    (readReg r s).2.status = s.status := by
  cases r with
  | status => exact absurd rfl h
  | _ => rfl

/-- RD_DATA alone moves the pointer (41_registers.md R134). -/
theorem readReg_vaddr {r : Reg} (h : r ≠ .data) (s : State) : (readReg r s).2.vaddr = s.vaddr := by
  cases r with
  | data => exact absurd rfl h
  | _ => rfl

/-- The other five registers are write-only, and reading one is a draw. -/
theorem readReg_writeOnly {r : Reg} (status : r ≠ .status) (oamdata : r ≠ .oamdata) (data : r ≠ .data)
    (s : State) : readReg r s = draw8 s := by
  cases r with
  | status => exact absurd rfl status
  | oamdata => exact absurd rfl oamdata
  | data => exact absurd rfl data
  | _ => rfl

/-! ### The unit -/

/-- The register of the window that DMA byte `count` of `page` addresses. -/
def dmaReg (page : Byte) (count : Fin 256) : Reg := regOfIdx (windowIndex (dmaSource page count))

/-- A page is a multiple of 8 addresses long, so the count's low three bits name the register (R85). -/
theorem dmaReg_eq_iff (page : Byte) (count : Fin 256) (r : Reg) :
    dmaReg page count = r ↔ count.val % 8 = (idxOfReg r).toNat := by
  have index : (windowIndex (dmaSource page count)).toNat = count.val % 8 := by
    unfold windowIndex
    rw [BitVec.extractLsb'_toNat, dmaSource_toNat, Nat.shiftRight_zero]
    omega
  unfold dmaReg
  constructor
  · rintro rfl
    rw [idxOfReg_regOfIdx, index]
  · intro same
    rw [BitVec.eq_of_toNat_eq (index.trans same), regOfIdx_idxOfReg]

/-- The cursor at which the unit's byte is written: after the hblank reset of the unit's dot
(45_timing.md R225). -/
theorem dotStep_oamaddr_toNat {s : State} (live : s.fault = none) :
    (dotStep s).oamaddr.toNat =
      if 256 ≤ s.dot.val ∧ s.line.val < 240 ∧ maskSPE s.mask = true then 0 else s.oamaddr.toNat := by
  rw [dotStep_oamaddr live]
  split <;> rfl

section

variable {s : State} {page : Byte} {count : Fin 256} (live : s.fault = none)
  (active : s.dma = .active page count) (inside : inWindow s.params (dmaSource page count) = true)

include live active inside

/-- A DMA unit with its source in the window: the dot, the register's read, the push, the count. -/
theorem effect_tick_dma_window :
    effect .tick s =
      (((oamPush (readReg (dmaReg page count) (dotStep s)).2
          (readReg (dmaReg page count) (dotStep s)).1).setDma (nextDma page count)).setClk
            (s.clk + 1)).setResp .none := by
  rw [effect_tick_dma live active]
  unfold dmaByte dispatchRead
  rw [(dotStep_frame s).params, if_pos inside]
  rfl

/-- The byte read stands at the cursor, and every other byte of OAM is as it was. -/
theorem oamRead_tick_dma_window {i : Nat} (hi : i < 256) :
    oamRead (effect .tick s) i =
      if i = (dotStep s).oamaddr.toNat then (readReg (dmaReg page count) (dotStep s)).1
      else oamRead s i := by
  have read := readReg_readFrame (dmaReg page count) (dotStep s)
  rw [effect_tick_dma_window live active inside, oamRead_congr (State.setResp_oam _ _),
    oamRead_congr (State.setClk_oam _ _), oamRead_congr (State.setDma_oam _ _), oamRead_oamPush,
    Nat.mod_eq_of_lt hi, read.oamaddr, oamRead_congr (read.oam.trans (dotStep_frame s).oam)]

/-- Elsewhere the unit leaves what the register read left. -/
theorem tick_dma_window_pushFrame :
    PushFrame (readReg (dmaReg page count) (dotStep s)).2 (effect .tick s) := by
  rw [effect_tick_dma_window live active inside]
  exact oamPush_pushFrame ..

end

/-- Settles O49: the byte at the cursor is the register's answer after the dot, and the side effect is the
register's; the register is told by the count's low three bits. -/
theorem dmaReadsDataRegister : Obligations.DmaReadsDataRegister := by
  unfold Obligations.DmaReadsDataRegister
  intro s page count live active inside
  have reg := dmaReg_eq_iff page count
  have dot := dotStep_frame s
  have read := readReg_readFrame (dmaReg page count) (dotStep s)
  have push := tick_dma_window_pushFrame live active inside
  have kept := dot.source.trans (read.toSourceFrame.trans push.toSourceFrame)
  have cell {i : Nat} (hi : i < 256) := oamRead_tick_dma_window live active inside hi
  have atCursor := (cell (dotStep s).oamaddr.isLt).trans (if_pos rfl)
  refine ⟨_, exec_live .tick live, ?window, kept.ctrl, kept.mask, kept.scrollX, kept.scrollY, kept.vtog,
    kept.cart, palRead_congr kept.pal⟩
  rw [← dotStep_oamaddr_toNat live]
  dsimp only
  rw [atCursor, push.status, push.vaddr, push.draws]
  refine ⟨fun two => ?status, fun four => ?oamdata, fun seven => ?data,
    fun two four seven => ?writeOnly, fun two => ?keepsStatus, fun seven => ?keepsVaddr,
    fun i hi other => (cell hi).trans (if_neg other)⟩
  case status =>
    rw [(reg .status).2 two]
    exact ⟨rfl, rfl⟩
  case oamdata =>
    rw [(reg .oamdata).2 four]
    exact oamRead_congr dot.oam _
  case data =>
    rw [(reg .data).2 seven, ← dot.vaddr, ← dot.ctrl]
    exact ⟨memRead_congr dot.pal dot.cart _, rfl⟩
  case writeOnly =>
    rw [readReg_writeOnly (mt (reg .status).1 two) (mt (reg .oamdata).1 four) (mt (reg .data).1 seven),
      ← dot.draws]
    exact ⟨rfl, rfl⟩
  case keepsStatus => exact readReg_status (mt (reg .status).1 two) _
  case keepsVaddr => exact (readReg_vaddr (mt (reg .data).1 seven) _).trans dot.vaddr

end Sys2Proof.Machine
end

section
/-! Proofs about the transaction words (30_encoding.md R100 to R102): decoding and encoding undo each
other, and the reserved words are those of R102. Both go through the fields of a word. -/

namespace Sys2Proof

/-! ### The four checks and the decoder's two answers -/

/-- The checks of R102 as conditions on the fields. -/
theorem TFields.wellFormed_iff (f : TFields) :
    f.wellFormed = true ↔
      f.res = 0#2 ∧ (f.w = true → f.port ≠ .clock ∧ f.port ≠ .host) ∧
        (f.port ≠ .window → f.idx = 0#3) ∧ (f.w = false → f.data = 0#8) := by
  obtain ⟨port, w, res, idx, data⟩ := f
  cases port <;> cases w <;>
    simp [TFields.wellFormed, TFields.resOk, TFields.writeOk, TFields.idxOk, TFields.dataOk, and_assoc]

theorem decode_eq_ok_iff {x : TWord} {i : Instr} :
    decode x = .ok i ↔ (fieldsOfWord x).wellFormed = true ∧ acceptedInstr (fieldsOfWord x) = i := by
  cases h : (fieldsOfWord x).wellFormed with
  | true => simp [decode_accepted h]
  | false =>
    obtain ⟨why, refused⟩ := decode_reserved h
    simp [refused]

theorem decode_eq_error_iff {x : TWord} :
    (∃ why, decode x = .error why) ↔ (fieldsOfWord x).wellFormed = false := by
  refine ⟨fun ⟨why, refused⟩ => ?_, decode_reserved⟩
  by_contra accepted
  rw [decode_accepted (Bool.eq_true_of_not_eq_false accepted)] at refused
  cases refused

/-! ### The opcode map on fields, in both directions -/

/-- No transaction is encoded as a reserved word: `Laws.EncodesAccepted` for all twenty at once. -/
theorem fieldsOfInstr_wellFormed (i : Instr) : Laws.EncodesAccepted.Statement i := by
  cases i <;> rfl

theorem acceptedInstr_fieldsOfInstr (i : Instr) : acceptedInstr (fieldsOfInstr i) = i := by
  cases i <;> rfl

theorem fieldsOfInstr_readInstr (r : Reg) : fieldsOfInstr (readInstr r) = readFields r := by
  cases r <;> rfl

theorem fieldsOfInstr_writeInstr (r : Reg) (v : Byte) :
    fieldsOfInstr (writeInstr r v) = writeFields r v := by
  cases r <;> rfl

/-- The map drops no field of an accepted word: what it does not look at, the checks fix. -/
theorem fieldsOfInstr_acceptedInstr {f : TFields} (accepted : f.wellFormed = true) :
    fieldsOfInstr (acceptedInstr f) = f := by
  obtain ⟨res, write, idx, data⟩ := f.wellFormed_iff.1 accepted
  obtain ⟨port, w, _, i, v⟩ := f
  cases port <;> cases w
  case window.false =>
    simp_all [acceptedInstr, fieldsOfInstr_readInstr, readFields, idxOfReg_regOfIdx]
  case window.true =>
    simp_all [acceptedInstr, fieldsOfInstr_writeInstr, writeFields, idxOfReg_regOfIdx]
  case clock.true => exact absurd rfl (write rfl).1
  case host.true => exact absurd rfl (write rfl).2
  all_goals simp_all [acceptedInstr, fieldsOfInstr]

theorem fieldsOfWord_encode (i : Instr) : fieldsOfWord (encode i) = fieldsOfInstr i :=
  fieldsOfWord_wordOfFields _

theorem decode_encode (i : Instr) : decode (encode i) = .ok i := by
  rw [decode_eq_ok_iff, fieldsOfWord_encode]
  exact ⟨fieldsOfInstr_wellFormed i, acceptedInstr_fieldsOfInstr i⟩

/-- Settles O1: the fields survive the word, and the opcode map takes them back. -/
theorem decodeInvertsEncode : Obligations.DecodeInvertsEncode := by
  unfold Obligations.DecodeInvertsEncode
  exact decode_encode

/-- Settles O2: the transaction's fields are the word's, and a word is put together from its fields. -/
theorem acceptedWordReencodes : Obligations.AcceptedWordReencodes := by
  unfold Obligations.AcceptedWordReencodes
  intro x i h
  obtain ⟨accepted, rfl⟩ := decode_eq_ok_iff.1 h
  unfold encode
  rw [fieldsOfInstr_acceptedInstr accepted, wordOfFields_fieldsOfWord]

/-! ### The reserved words -/

theorem portOfBits_eq_iff (b : BitVec 2) (p : Port) : portOfBits b = p ↔ b = bitsOfPort p := by
  constructor
  · rintro rfl; exact (bitsOfPort_portOfBits b).symm
  · rintro rfl; exact portOfBits_bitsOfPort p

/-- Settles O3: a word is refused when its fields fail a check, and each check fails in one of the four
cases. -/
theorem reservedWordsAreExactly : Obligations.ReservedWordsAreExactly := by
  unfold Obligations.ReservedWordsAreExactly
  intro x
  rw [decode_eq_error_iff, ← Bool.not_eq_true, TFields.wellFormed_iff]
  simp only [fieldsOfWord, ne_eq, portOfBits_eq_iff, bitsOfPort]
  tauto

/-- Settles O4: fourteen closed words, each decoded by evaluation. -/
theorem specWordsDecode : Obligations.SpecWordsDecode := by
  unfold Obligations.SpecWordsDecode
  decide

end Sys2Proof
end

section
/-! Proofs about the queue of words (30_encoding.md R105, R106): which transaction a step performs, and
SETADDR as two steps. -/

namespace Sys2Proof.Machine

theorem step_of_decode {s : State} {w : TWord} {rest : List TWord} {i : Instr}
    (waits : s.script = w :: rest) (hw : decode w = .ok i) : step s = exec i (s.setScript rest) := by
  unfold step
  rw [waits]
  dsimp only
  rw [hw]

theorem decode_of_decodeTableWord {nbits w : Nat} {i : Instr} (h : decodeTableWord nbits w = some i) :
    decode (tableWord nbits w) = .ok i := by
  unfold decodeTableWord at h
  split at h
  next j hj => cases h; exact hj
  next => cases h

/-- Settles O5: a word put first and taken off again gives the queue back. -/
theorem stepRunsDecodedWord : Obligations.StepRunsDecodedWord := by
  unfold Obligations.StepRunsDecodedWord
  refine ⟨fun s w rest i => step_of_decode, fun s nbits w i h => ?_⟩
  exact step_of_decode (s := s.withFetchWord nbits w) rfl (decode_of_decodeTableWord h)

/-- A live machine with the word of a transaction first in its queue completes that transaction. -/
theorem step_encode {s : State} {i : Instr} {rest : List TWord} (live : s.Live)
    (waits : s.script = encode i :: rest) : step s = .next (effect i (s.setScript rest)) := by
  rw [step_of_decode waits (decode_encode i)]
  exact exec_live i live

/-! ### SETADDR -/

/-- Two shifts drop all of the old pointer, and the high byte's top two bits (41_registers.md R133). -/
theorem shiftAddress_bytes_toNat (p : Addr14) (a : Addr16) :
    (shiftAddress (shiftAddress p (a.extractLsb' 8 8)) (a.extractLsb' 0 8)).toNat
      = a.toNat % 0x4000 := by
  simp only [shiftAddress_toNat, BitVec.extractLsb'_toNat, Nat.shiftRight_eq_div_pow]
  omega

/-- Two writes of ADDR flip VTOG back and move the pointer alone. -/
theorem effect_wrAddr_wrAddr (h l : Byte) (s : State) :
    effect (.wrAddr l) (effect (.wrAddr h) s) =
      (s.setVaddr (shiftAddress (shiftAddress s.vaddr h) l)).setResp .none := by
  have flips : effect (.wrAddr l) (effect (.wrAddr h) s) =
      ((s.setVaddr (shiftAddress (shiftAddress s.vaddr h) l)).setVtog (!!s.vtog)).setResp .none := rfl
  rw [flips, Bool.not_not]
  rfl

/-- Settles O23: two steps perform the two writes of ADDR and use the queue up. -/
theorem setAddrFromAnywhere : Obligations.SetAddrFromAnywhere := by
  unfold Obligations.SetAddrFromAnywhere
  intro a s live empty
  have issued : (issueScript s [.setAddr a]).script =
      [encode (.wrAddr (a.extractLsb' 8 8)), encode (.wrAddr (a.extractLsb' 0 8))] := by
    unfold issueScript
    rw [State.setScript_script, empty]
    rfl
  have drained : (issueScript s [.setAddr a]).setScript [] = s := by rw [← empty]; rfl
  refine ⟨_, _, step_encode live issued, step_encode live rfl, ?frame, shiftAddress_bytes_toNat ..⟩
  calc effect _ (effect _ ((issueScript s [.setAddr a]).setScript []))
      = effect (.wrAddr (a.extractLsb' 0 8)) (effect (.wrAddr (a.extractLsb' 8 8)) s) := by
        rw [drained]
    _ = _ := effect_wrAddr_wrAddr ..

end Sys2Proof.Machine
end

section
/-! Proofs about the register window and the DMA trigger (41_registers.md R120 to R138). On a live machine a
transaction completes with its effect (`exec_live`), so each statement is one about `effect`. -/

namespace Sys2Proof.Machine

/-! ### The words of the writes -/

/-- DATA is the low byte of a word and shares no bit with the other fields (30_encoding.md R100). -/
theorem wordOfFields_setData (f : TFields) (v : Byte) :
    wordOfFields { f with data := v } = wordOfFields { f with data := 0#8 } ||| v.setWidth 16 := by
  apply BitVec.eq_of_getLsbD_eq
  intro j hj
  rw [BitVec.getLsbD_or, BitVec.getLsbD_setWidth, wordOfFields_bit, wordOfFields_bit]
  by_cases low : j < 8
  · simp [low, hj]
  · simp [low, BitVec.getLsbD_of_ge v j (Nat.not_lt.1 low)]

/-- Where a transaction's operand is its DATA field and nothing else of its word, the decoder takes the
opcode with any operand to the transaction with that operand (30_encoding.md R101). -/
theorem decode_opcode_or_data {opcode : TWord} {write : Byte → Instr}
    (operand : ∀ v, fieldsOfInstr (write v) = { fieldsOfInstr (write 0#8) with data := v })
    (word : encode (write 0#8) = opcode) (v : Byte) :
    decode (opcode ||| v.setWidth 16) = .ok (write v) := by
  have joined : encode (write v) = opcode ||| v.setWidth 16 :=
    calc encode (write v)
        = wordOfFields { fieldsOfInstr (write 0#8) with data := v } := congrArg wordOfFields (operand v)
      _ = wordOfFields { fieldsOfInstr (write 0#8) with data := 0#8 } ||| v.setWidth 16 :=
        wordOfFields_setData _ v
      _ = opcode ||| v.setWidth 16 := by rw [← operand 0#8, ← word]; rfl
  rw [← joined]
  exact decode_encode (write v)

/-! ### The data port -/

/-- A video write touches the palette and the cartridge at most (20_memory.md R65). -/
theorem memWrite_eq (s : State) (a : Nat) (v : Byte) :
    memWrite s a v = (s.setPal (memWrite s a v).pal).setCart (memWrite s a v).cart := by
  unfold memWrite
  split <;> rfl

/-- A data write through the port at a cartridge address is a cartridge write at the pointer, and the
pointer's advance (41_registers.md R135). -/
theorem effect_wrData_cart {s : State} (h : s.vaddr.toNat < 0x3F00) (v : Byte) :
    effect (.wrData v) s =
      (advanceVaddr (s.setCart (writeChipSpace s.vaddr v s.cart))).setResp .none := by
  have pointer : videoAddr s.vaddr.toNat = s.vaddr := by simp [videoAddr]
  unfold effect writeData
  dsimp only
  rw [memWrite_cart s (by rwa [Nat.mod_eq_of_lt s.vaddr.isLt]), pointer]

/-- A data write at a palette address writes the cell that the pointer aliases and no other
(20_memory.md R67). -/
theorem palRead_effect_wrData {s : State} (h : 0x3F00 ≤ s.vaddr.toNat) (v : Byte) (j : Nat) :
    palRead (effect (.wrData v) s) j = if j = pidx s.vaddr.toNat then v else palRead s j := by
  rw [effect_wrData_palette h, ← palRead_palWrite]
  rfl

/-- An address below 0x4000 reaches its cell without a reduction. -/
theorem videoCell_of_lt {a : Nat} (h : a < 0x4000) :
    videoCell a = if a < 0x3F00 then a else 0x3F00 + pidx a := by
  unfold videoCell
  rw [Nat.mod_eq_of_lt h]

/-- Settles O19: the write is a video write at the pointer, then the advance; where the byte goes splits at
0x3F00, and what is read afterwards is `memRead_memWrite_ram`. -/
theorem writeDataStoresAndAdvances : Obligations.WriteDataStoresAndAdvances := by
  unfold Obligations.WriteDataStoresAndAdvances
  intro v s live
  have advanced : (effect (.wrData v) s).vaddr = s.vaddr + dataIncrement (ctrlINC s.ctrl) :=
    writeData_vaddr s v
  refine ⟨_, exec_live (.wrData v) live, ?frame, ?pointer, fun low => ?cart, fun high => ?palette,
    fun m ram a ha => ?reads⟩
  case frame =>
    calc effect (.wrData v) s
        = (advanceVaddr (memWrite s s.vaddr.toNat v)).setResp .none := rfl
      _ = (advanceVaddr ((s.setPal (memWrite s s.vaddr.toNat v).pal).setCart
            (memWrite s s.vaddr.toNat v).cart)).setResp .none := by rw [← memWrite_eq]
      _ = _ := by rw [advanced]; rfl
  case pointer =>
    rw [advanced]
    exact add_dataIncrement_toNat s.vaddr (ctrlINC s.ctrl)
  case cart =>
    rw [effect_wrData_cart low]
    exact ⟨rfl, rfl⟩
  case palette =>
    refine ⟨?_, palRead_effect_wrData high v⟩
    rw [effect_wrData_palette high]
    rfl
  case reads =>
    rw [← videoCell_of_lt ha, ← videoCell_of_lt s.vaddr.isLt]
    exact (memRead_memWrite_ram ram s.vaddr.toNat a v).trans (if_congr eq_comm rfl rfl)

/-! ### The reads -/

/-- Settles O10: all six reads are `draw8`. -/
theorem writeOnlyReadsDraw : Obligations.WriteOnlyReadsDraw := by
  unfold Obligations.WriteOnlyReadsDraw
  intro i s live hi
  rw [exec_live i live]
  obtain rfl | rfl | rfl | rfl | rfl | rfl := hi <;> rfl

/-- Settles O11: the mask 0x7F is `clearVBL`, which drops VBL and keeps S0H. -/
theorem readStatusClearsOnlyVbl : Obligations.ReadStatusClearsOnlyVbl := by
  unfold Obligations.ReadStatusClearsOnlyVbl
  exact ⟨decode_encode .rdStatus, fun s live =>
    ⟨exec_live .rdStatus live, statusVBL_clearVBL s.status, statusS0H_clearVBL s.status⟩⟩

/-- Settles O12. -/
theorem readOamdataKeepsCursor : Obligations.ReadOamdataKeepsCursor := by
  unfold Obligations.ReadOamdataKeepsCursor
  exact ⟨decode_encode .rdOamdata, fun _ live => exec_live .rdOamdata live⟩

/-- Settles O13: the byte is read before the pointer moves, and nothing but the pointer does. -/
theorem readDataReturnsAtOnce : Obligations.ReadDataReturnsAtOnce := by
  unfold Obligations.ReadDataReturnsAtOnce
  exact ⟨decode_encode .rdData, fun s live =>
    ⟨_, exec_live .rdData live, rfl, add_dataIncrement_toNat s.vaddr (ctrlINC s.ctrl)⟩⟩

/-! ### The other writes -/

/-- Settles O14. -/
theorem storingWritesStore : Obligations.StoringWritesStore := by
  unfold Obligations.StoringWritesStore
  exact fun v _ live =>
    ⟨exec_live (.wrCtrl v) live, exec_live (.wrMask v) live, exec_live (.wrOamaddr v) live⟩

/-- Settles O15: the byte reaches the transaction, whose effect does not use it. -/
theorem writeStatusDiscarded : Obligations.WriteStatusDiscarded := by
  unfold Obligations.WriteStatusDiscarded
  exact fun v => ⟨decode_opcode_or_data (write := .wrStatus) (fun _ => rfl) (by decide) v,
    fun _ live => exec_live (.wrStatus v) live⟩

/-- Settles O16: the write is `oamPush`, at the cursor as it was before. -/
theorem writeOamdataStoresAndIncrements : Obligations.WriteOamdataStoresAndIncrements := by
  unfold Obligations.WriteOamdataStoresAndIncrements
  refine ⟨decode_opcode_or_data (write := .wrOamdata) (fun _ => rfl) (by decide), fun v s live =>
    ⟨_, exec_live (.wrOamdata v) live, rfl, BitVec.toNat_add .., fun i hi => ?bytes⟩⟩
  calc oamRead (effect (.wrOamdata v) s) i
      = oamRead (oamPush s v) i := rfl
    _ = if i = s.oamaddr.toNat then v else oamRead s i := by
      rw [oamRead_oamPush, Nat.mod_eq_of_lt hi]

/-- Settles O17: after two writes X holds what the first left in Y. -/
theorem writeScrollShiftsLatch : Obligations.WriteScrollShiftsLatch := by
  unfold Obligations.WriteScrollShiftsLatch
  exact ⟨decode_opcode_or_data (write := .wrScroll) (fun _ => rfl) (by decide),
    fun v _ live => exec_live (.wrScroll v) live,
    fun a b _ live =>
      ⟨_, _, exec_live (.wrScroll a) live, exec_live (.wrScroll b) live, rfl, rfl⟩⟩

/-- Settles O18: one shift in numbers is `shiftAddress_toNat`; the second drops all of the old pointer. -/
theorem writeAddrShiftsPointer : Obligations.WriteAddrShiftsPointer := by
  unfold Obligations.WriteAddrShiftsPointer
  refine ⟨decode_opcode_or_data (write := .wrAddr) (fun _ => rfl) (by decide), fun v s live =>
    ⟨_, exec_live (.wrAddr v) live, rfl, shiftAddress_toNat s.vaddr v⟩, fun h l s live =>
    ⟨_, _, exec_live (.wrAddr h) live, exec_live (.wrAddr l) live, ?twice⟩⟩
  calc (shiftAddress (shiftAddress s.vaddr h) l).toNat
      = (s.vaddr.toNat % 0x40 * 0x100 + h.toNat) % 0x40 * 0x100 + l.toNat := by
        rw [shiftAddress_toNat, shiftAddress_toNat]
    _ = h.toNat % 0x40 * 0x100 + l.toNat := by omega

/-- Settles O21: the effect does not look at the transfer in progress. -/
theorem writeDmaActivates : Obligations.WriteDmaActivates := by
  unfold Obligations.WriteDmaActivates
  exact ⟨decode_opcode_or_data (write := .wrDma) (fun _ => rfl) (by decide),
    fun page _ live => exec_live (.wrDma page) live⟩

/-! ### The window's aliasing -/

/-- The index of a register is the address modulo 8 (30_encoding.md R90). -/
theorem windowIndex_eq (a : Addr16) : windowIndex a = BitVec.ofNat 3 (a.toNat % 8) := by
  apply BitVec.eq_of_toNat_eq
  unfold windowIndex
  rw [BitVec.extractLsb'_toNat, Nat.shiftRight_zero, BitVec.toNat_ofNat, Nat.mod_mod]

theorem dispatchRead_window {s : State} {a : Addr16} (inside : inWindow s.params a = true) :
    dispatchRead a s = readReg (regOfIdx (windowIndex a)) s := by
  unfold dispatchRead
  rw [if_pos inside]

theorem dispatchWrite_window {s : State} {a : Addr16} (inside : inWindow s.params a = true) (v : Byte) :
    dispatchWrite a v s = writeReg (regOfIdx (windowIndex a)) v s := by
  unfold dispatchWrite
  rw [if_pos inside]

theorem inWindow_default {p : Params} (h : p.window = Params.default.window) (a : Addr16) :
    inWindow p a = inWindow Params.default a := by
  unfold inWindow
  rw [h]

/-- A script's read of a register has the register's read as its effect, and keeps the byte. -/
theorem effect_readInstr (r : Reg) (s : State) :
    effect (readInstr r) s = (readReg r s).2.setResp (.byte (readReg r s).1) := by
  cases r <;> rfl

theorem effect_writeInstr (r : Reg) (v : Byte) (s : State) :
    effect (writeInstr r v) s = (writeReg r v s).setResp .none := by
  cases r <;> rfl

/-- Settles O28: the dispatcher and the script reach the same register accesses, the one by the address's
low three bits, the other by the transaction's name. -/
theorem windowAliasesModEight : Obligations.WindowAliasesModEight := by
  unfold Obligations.WindowAliasesModEight
  refine ⟨fun s a v inside => ?access, fun r s live => ?read, fun r v s live => ?write,
    fun s v window => ?examples⟩
  case access =>
    rw [← windowIndex_eq]
    exact ⟨dispatchRead_window inside, dispatchWrite_window inside v⟩
  case read => rw [exec_live _ live, effect_readInstr]
  case write => rw [exec_live _ live, effect_writeInstr]
  case examples =>
    have inside := inWindow_default window
    exact ⟨dispatchWrite_window ((inside 0x2008#16).trans (by decide)) v,
      dispatchWrite_window ((inside 0x3FFF#16).trans (by decide)) v⟩

end Sys2Proof.Machine
end

section
/-! Proofs about the background line and the scanline buffer (42_background.md R160 to R171; 43_sprites.md
R196). -/

namespace Sys2Proof.Machine

/-! ### The closed form's parts, in plain numbers -/

/-- The in-table column subtracts 256 in the second half alone (42_background.md R162). -/
theorem bgColumn_eq (h : Nat) : bgColumn h = h - 256 * (if 256 ≤ h then 1 else 0) := by
  unfold bgColumn
  split <;> rfl

/-- Bit 0 of the select toggles in the second half (42_background.md R162). -/
theorem bgTable_ctrlNT (c : Byte) (h : Nat) :
    bgTable (ctrlNT c) h = 0x2000 + 0x400 * ((c.toNat % 4) ^^^ (if 256 ≤ h then 1 else 0)) := by
  have select : (ctrlNT c).toNat = c.toNat % 4 := BitVec.extractLsb'_toNat ..
  unfold bgTable
  rw [BitVec.toNat_xor, select]
  split <;> rfl

/-- The attribute byte holds four groups of two bits (42_background.md R166). -/
theorem paletteGroup_toNat (attr : Byte) (hh ey : Nat) :
    (paletteGroup attr hh ey).toNat =
      attr.toNat / 2 ^ ((if 16 ≤ hh % 32 then 2 else 0) + (if 16 ≤ ey % 32 then 4 else 0)) % 4 := by
  unfold paletteGroup
  rw [BitVec.extractLsb'_toNat, Nat.shiftRight_eq_div_pow]

theorem patternAddr_eq (table : Bool) (tile : Byte) (row : Nat) :
    patternAddr table tile row = 0x1000 * table.toNat + 16 * tile.toNat + row := by
  cases table <;> rfl

/-- A background cell's group stands above its colour, with cell bit 4 zero (42_background.md R167). -/
theorem zero_append_group_append_colour_toNat (group colour : BitVec 2) :
    (0#1 ++ group ++ colour).toNat = colour.toNat + 4 * group.toNat := by
  revert group colour
  decide

/-! ### SCAN after dot 0 of a visible line -/

/-- The background has each column to itself where no sprite is drawn (45_timing.md R222). -/
theorem rendered_scan_of_background {s : State} (dot : s.dot.val = 0) (line : s.line.val < 240)
    (bge : maskBGE s.mask = true) (spe : maskSPE s.mask = false) {x : Nat} (hx : x < 256) :
    scanRead (rendered s).scan x = bgCell s s.line.val x := by
  rw [rendered_line dot line, spe, if_neg Bool.false_ne_true, background_scan s hx, if_pos bge]

/-- With both pipelines off a line render does nothing (42_background.md R171, 43_sprites.md R196). -/
theorem rendered_of_pipelines_off {s : State} (dot : s.dot.val = 0) (line : s.line.val < 240)
    (bge : maskBGE s.mask = false) (spe : maskSPE s.mask = false) : rendered s = frameStart s := by
  have noBackground : renderBackground (frameStart s) = frameStart s := by
    unfold renderBackground
    rw [(frameStart_frame s).mask, bge, if_neg Bool.false_ne_true]
  rw [rendered_line dot line, spe, if_neg Bool.false_ne_true, noBackground]

/-- Frame start clears SCAN (45_timing.md R221). -/
theorem scanRead_frameStart {s : State} (dot : s.dot.val = 0) (x : Nat) :
    scanRead (frameStart s).scan x = if s.line.val = 0 then 0#5 else scanRead s.scan x := by
  rw [frameStart_scan]
  by_cases first : s.line.val = 0
  · rw [if_pos ⟨dot, first⟩, if_pos first]; rfl
  · rw [if_neg fun start => first start.2, if_neg first]

/-- Settles O38: the cell is put in numbers part by part, and the line render leaves it in SCAN. -/
theorem backgroundLineFormula : Obligations.BackgroundLineFormula := by
  unfold Obligations.BackgroundLineFormula
  intro s cell
  have formula : ∀ y x, (bgCell s y x).toNat = cell y x := fun y x => by
    unfold bgCell bgTileAddr bgAttrAddr
    dsimp only
    rw [zero_append_group_append_colour_toNat, pixelColour_toNat, paletteGroup_toNat, patternAddr_eq,
      bgTable_ctrlNT, bgColumn_eq]
    rfl
  refine ⟨fun y x _ => formula y x, fun live dot line bge spe =>
    ⟨_, exec_live .tick live, fun x hx => ?column⟩⟩
  rw [tick_scan live, rendered_scan_of_background dot line bge spe hx, formula]

/-- Settles O39: off dot 0 of a visible line nothing renders, and at it only frame start is left when both
pipelines are off. -/
theorem scanKeptWithoutPipelines : Obligations.ScanKeptWithoutPipelines := by
  unfold Obligations.ScanKeptWithoutPipelines
  refine fun s live => ⟨_, exec_live .tick live, fun off => ?kept,
    fun dot line bge spe => ⟨?hit, fun x => ?scan⟩⟩
  case kept => rw [tick_scan live, rendered_scan_keep off]
  case hit =>
    rw [tick_hitcol live]
    exact rendered_hitcol fun ⟨_, _, on⟩ => by simp [spe] at on
  case scan =>
    rw [tick_scan live, rendered_of_pipelines_off dot line bge spe, scanRead_frameStart dot]

end Sys2Proof.Machine
end

section
/-! Proofs about sprite evaluation and overlay (43_sprites.md R180 to R193). -/

namespace Sys2Proof.Machine

/-! ### Selection -/

/-- OAM indices count modulo 256 (20_memory.md R69). -/
theorem oamRead_mod (s : State) (i : Nat) : oamRead s (i % 256) = oamRead s i := by
  unfold oamRead
  rw [Nat.mod_mod]

/-- Scan order is the order of the places `k` (43_sprites.md R184). -/
theorem spriteSelect_pairwise (s : State) (y : Nat) :
    (spriteSelect s y).Pairwise fun r r' => r.k < r'.k := by
  have scan : ((List.range 64).map (spriteRecord s)).Pairwise fun r r' => r.k < r'.k :=
    List.pairwise_map.2 List.pairwise_lt_range
  exact (scan.filter _).take

theorem mem_spriteSelect (s : State) (y : Nat) (r : SpriteRec) :
    r ∈ spriteSelect s y ↔ ∃ k, k < 64 ∧ r = spriteRecord s k ∧ r.inRange y = true ∧
      ((List.range k).filter fun j => (spriteRecord s j).inRange y).length < 8 :=
  mem_take_filter_range (spriteRecord s) (fun r => r.inRange y) 8 64 r

/-- The record at the cursor is selected whenever it is in range, since no record is before it
(43_sprites.md R192). -/
theorem mem_spriteSelect_first (s : State) (y : Nat) (r : SpriteRec) :
    r ∈ spriteSelect s y ∧ r.k = 0 ↔ r = spriteRecord s 0 ∧ r.inRange y = true := by
  rw [mem_spriteSelect]
  constructor
  · rintro ⟨⟨k, -, rfl, inside, -⟩, first⟩
    obtain rfl : k = 0 := first
    exact ⟨rfl, inside⟩
  · rintro ⟨rfl, inside⟩
    exact ⟨⟨0, by omega, rfl, inside, by simp⟩, rfl⟩

/-- Settles O40: the selection is the first eight of a filtered list of records. -/
theorem spriteSelectionLimit : Obligations.SpriteSelectionLimit := by
  unfold Obligations.SpriteSelectionLimit
  refine ⟨fun s k => ?fields, inRange_iff,
    fun s y => ⟨?limit, spriteSelect_pairwise s y, fun r => ?members⟩⟩
  case fields =>
    simp only [oamRead_mod]
    exact ⟨rfl, rfl, rfl, rfl, rfl⟩
  case limit => exact List.length_take_le ..
  case members =>
    rw [mem_spriteSelect]
    simp only [inRange_iff, and_assoc]

/-! ### The overlay as a line render runs it -/

/-- The sprites are drawn over the background's scanline buffer, and everything else they read is as it
was before the dot (45_timing.md R222). -/
theorem spriteOverlay_background (s : State) (y : Nat) :
    spriteOverlay (renderBackground (frameStart s)) y =
      (spriteOrder s.params.priority (spriteSelect s y)).foldl (spriteDraw s y)
        { scan := (renderBackground (frameStart s)).scan, hit := none } := by
  have f := background_frame s
  have draw : spriteDraw (renderBackground (frameStart s)) y = spriteDraw s y := by
    funext o r
    have column : spriteColumn (renderBackground (frameStart s)) y r = spriteColumn s y r := by
      funext o c
      unfold spriteColumn
      rw [spritePixel_congr f.pal f.cart f.ctrl, f.mask, f.params]
    unfold spriteDraw
    rw [column]
  unfold spriteOverlay
  rw [draw, f.params, spriteSelect_congr f.oam (background_oamaddr s)]

/-! ### The winner of a column -/

/-- The sprite drawn last among those that show in a column gives its cell (43_sprites.md R190). -/
theorem foldl_spriteDraw_scan (s : State) (y : Nat) (o : Overlay) {x : Nat} (hx : x < 256)
    (order : List SpriteRec) :
    scanRead (order.foldl (spriteDraw s y) o).scan x =
      (order.reverse.find? (covers s y · x)).elim (scanRead o.scan x)
        fun r => spriteCell s.params.palette r (spritePixel s y r (x - r.x.toNat)) := by
  induction order using List.reverseRecOn with
  | nil => rfl
  | append_singleton order r ih =>
    rw [List.foldl_append, List.foldl_cons, List.foldl_nil, spriteDraw_scan _ _ _ _ hx, ih,
      List.reverse_append, List.reverse_singleton, List.singleton_append, List.find?_cons]
    cases covers s y r x <;> rfl

/-- SCAN after dot 0 of a visible line with SPE = 1. -/
theorem tick_scan_sprites {s : State} (live : s.Live) (dot : s.dot.val = 0) (line : s.line.val < 240)
    (spe : maskSPE s.mask = true) {x : Nat} (hx : x < 256) :
    scanRead (effect .tick s).scan x =
      ((spriteOrder s.params.priority (spriteSelect s s.line.val)).reverse.find?
          (covers s s.line.val · x)).elim
        (scanRead (renderBackground (frameStart s)).scan x)
        fun r => spriteCell s.params.palette r (spritePixel s s.line.val r (x - r.x.toNat)) := by
  rw [tick_scan live, rendered_line dot line, if_pos spe, spriteLine, State.setHitcol_scan,
    State.setScan_scan, spriteOverlay_background, foldl_spriteDraw_scan _ _ _ hx]

/-- `covers` in plain numbers (43_sprites.md R186 to R188, R191). -/
theorem covers_eq (s : State) (y : Nat) (r : SpriteRec) (x : Nat) :
    covers s y r x = decide (r.x.toNat ≤ x ∧ x < r.x.toNat + 8 ∧
      (spritePixel s y r (x - r.x.toNat)).toNat ≠ 0 ∧ (8 ≤ x ∨ s.mask.getLsbD 2 = true)) := by
  unfold covers maskSPL
  simp only [ne_eq, ← BitVec.toNat_inj, BitVec.toNat_ofNat, Nat.zero_mod]

/-- The sprite that wins a column is the first to show there in this list: the one drawn last
(43_sprites.md R190). -/
theorem spriteOrder_reverse (p : SpritePriority) (sel : List SpriteRec) :
    (spriteOrder p sel).reverse = match p with | .firstWins => sel | .lastWins => sel.reverse := by
  cases p
  · exact List.reverse_reverse sel
  · rfl

/-- Settles O41: SCAN after the overlay is the last covering sprite's cell, or the background's. -/
theorem spriteOverlayWinner : Obligations.SpriteOverlayWinner := by
  unfold Obligations.SpriteOverlayWinner
  refine fun s live dot line spe => ⟨_, exec_live .tick live, fun x hx => ?_⟩
  intro pix spal
  have pix_eq : ∀ r : SpriteRec, (spritePixel s s.line.val r (x - r.x.toNat)).toNat = pix r :=
    fun r => spritePixel_toNat s s.line.val r (x - r.x.toNat)
  rw [tick_scan_sprites live dot line spe hx, spriteOrder_reverse]
  simp only [covers_eq, pix_eq]
  generalize List.find? _ _ = winner
  cases winner with
  | some r =>
    have cell := spriteCell_toNat s.params.palette r (spritePixel s s.line.val r (x - r.x.toNat))
    rw [pix_eq] at cell
    exact cell
  | none =>
    show (scanRead (renderBackground (frameStart s)).scan x).toNat = _
    rw [background_scan s hx]
    simp only [dot, true_and, apply_ite BitVec.toNat]
    rfl

/-! ### The hit column -/

/-- The hit candidate of a whole overlay: the least column that a drawn record 0 covers (43_sprites.md
R192). -/
theorem foldl_spriteDraw_hit (s : State) (y : Nat) (scan : Memory Cell5) (order : List SpriteRec) :
    Least (fun x => ∃ r ∈ order, r.k = 0 ∧ x < 256 ∧ covers s y r x = true)
      (order.foldl (spriteDraw s y) { scan, hit := none }).hit := by
  induction order using List.reverseRecOn with
  | nil => exact fun _ ⟨_, drawn, _⟩ => nomatch drawn
  | append_singleton order r ih =>
    rw [List.foldl_append, List.foldl_cons, List.foldl_nil]
    refine least_congr (fun x => ?_) (spriteDraw_hit s y r _ ih)
    simp only [List.mem_append, List.mem_singleton, or_and_right, exists_or, exists_eq_left]

theorem mem_spriteOrder (p : SpritePriority) (sel : List SpriteRec) (r : SpriteRec) :
    r ∈ spriteOrder p sel ↔ r ∈ sel := by
  cases p
  · exact List.mem_reverse
  · exact Iff.rfl

/-- The record at the cursor is in range of line `y` and shows in column `x` (43_sprites.md R192). -/
def firstShows (s : State) (y x : Nat) : Prop :=
  (spriteRecord s 0).inRange y = true ∧ covers s y (spriteRecord s 0) x = true

/-- The record at the cursor is the only drawn record 0 (43_sprites.md R192). -/
theorem exists_drawn_first_iff (s : State) (y : Nat) (P : SpriteRec → Prop) :
    (∃ r ∈ spriteOrder s.params.priority (spriteSelect s y), r.k = 0 ∧ P r) ↔
      (spriteRecord s 0).inRange y = true ∧ P (spriteRecord s 0) := by
  simp only [mem_spriteOrder, ← and_assoc, mem_spriteSelect_first]
  constructor
  · rintro ⟨_, ⟨rfl, inside⟩, h⟩
    exact ⟨inside, h⟩
  · exact fun ⟨inside, h⟩ => ⟨_, ⟨rfl, inside⟩, h⟩

/-- HITCOL is the least column of the screen with `S`, unless that is 255 (43_sprites.md R193). -/
theorem hitColumn_eq_some_iff {S : Nat → Prop} {o : Option Nat}
    (least : Least (fun x => x < 256 ∧ S x) o) (h : Fin 255) :
    hitColumn o = some h ↔ S h.val ∧ ∀ x, x < h.val → ¬ S x := by
  have onScreen : h.val < 256 := by omega
  cases o with
  | none =>
    constructor
    · exact fun hit => nomatch hit
    · exact fun ⟨hit, _⟩ => absurd ⟨onScreen, hit⟩ (least h.val)
  | some g =>
    obtain ⟨⟨_, at_g⟩, before_g⟩ := least
    have value : hitColumn (some g) = some h ↔ g = h.val := by
      by_cases lt : g < 255
      · simp [hitColumn, lt, Fin.ext_iff]
      · simp only [hitColumn, lt, dif_neg, not_false_eq_true, reduceCtorEq, false_iff]
        omega
    rw [value]
    constructor
    · rintro rfl
      exact ⟨at_g, fun x lt hit => before_g x lt ⟨by omega, hit⟩⟩
    · rintro ⟨at_h, before_h⟩
      rcases Nat.lt_trichotomy g h.val with lt | eq | gt
      · exact absurd at_g (before_h g lt)
      · exact eq
      · exact absurd ⟨onScreen, at_h⟩ (before_g h.val gt)

/-- HITCOL after dot 0 of a visible line with SPE = 1: the least column where the record at the cursor is in
range and shows. -/
theorem tick_hitcol_sprites {s : State} (live : s.Live) (dot : s.dot.val = 0) (line : s.line.val < 240)
    (spe : maskSPE s.mask = true) (h : Fin 255) :
    (effect .tick s).hitcol = some h ↔ firstShows s s.line.val h.val ∧
      ∀ x, x < h.val → ¬ firstShows s s.line.val x := by
  rw [tick_hitcol live, rendered_line dot line, if_pos spe, spriteLine, State.setHitcol_hitcol,
    spriteOverlay_background]
  refine hitColumn_eq_some_iff (least_congr (fun x => ?_) (foldl_spriteDraw_hit ..)) h
  rw [exists_drawn_first_iff, and_left_comm, firstShows]

/-- A pixel is opaque when one of its two planes has its bit (43_sprites.md R187, R191). -/
theorem planes_ne_zero_iff (lo hi : Bool) : lo.toNat + 2 * hi.toNat ≠ 0 ↔ lo = true ∨ hi = true := by
  revert lo hi
  decide

/-- `firstShows` in plain numbers (43_sprites.md R183, R186 to R188, R191). -/
theorem firstShows_iff (s : State) (y x : Nat) :
    firstShows s y x ↔
      let r := spriteRecord s 0
      let row := if r.attr.getLsbD 7 then 7 - (y - r.y.toNat) else y - r.y.toNat
      let bit := if r.attr.getLsbD 6 then x - r.x.toNat else 7 - (x - r.x.toNat)
      let at0 := 0x1000 * (s.ctrl.getLsbD 3).toNat + 16 * r.tile.toNat + row
      r.y.toNat ≤ y ∧ y < r.y.toNat + 8 ∧ r.x.toNat ≤ x ∧ x < r.x.toNat + 8 ∧
        ((memRead s at0).getLsbD bit = true ∨ (memRead s (at0 + 8)).getLsbD bit = true) ∧
        (8 ≤ x ∨ s.mask.getLsbD 2 = true) := by
  unfold firstShows
  rw [inRange_iff, covers_eq, decide_eq_true_eq, spritePixel_toNat, planes_ne_zero_iff, and_assoc]

/-- Settles O42: the record at OAMADDR is record 0, whose least covered column the overlay reports. -/
theorem spriteHitColumn : Obligations.SpriteHitColumn := by
  unfold Obligations.SpriteHitColumn
  refine fun s live dot line spe => ⟨_, exec_live .tick live, fun h => ?_⟩
  rw [tick_hitcol_sprites live dot line spe]
  simp only [oamRead_mod, firstShows_iff]
  exact Iff.rfl

end Sys2Proof.Machine
end

section
/-! Proofs about the compositor (44_compositor.md R210 to R214). -/

namespace Sys2Proof.Machine

/-- The host's framebuffer read looks at FB alone (60_exceptions.md R271). -/
theorem fbRead_congr {s t : State} (same : t.fb = s.fb) (x y : Nat) : fbRead t x y = fbRead s x y := by
  unfold fbRead
  rw [same]

/-- What the grid of 256 by 240 cells reads as after TICK. -/
theorem fbRead_tick {s : State} (live : s.Live) {x y : Nat} (hx : x < 256) (hy : y < 240) :
    fbRead (effect .tick s) x y =
      if x = s.dot.val ∧ y = s.line.val then
        resolveCell s (scanRead (effect .tick s).scan s.dot.val)
      else fbRead s x y := by
  have scan : (effect .tick s).scan = (dotStep s).scan := (tick_scan live).trans (dotStep_scan live).symm
  have fb := (tick_fb live).trans (dotStep_fb live)
  rw [scan]
  by_cases visible : s.dot.val < 256 ∧ s.line.val < 240
  · have written : (effect .tick s).fb =
        (fbWrite s s.dot.val s.line.val (resolveCell s (scanRead (dotStep s).scan s.dot.val))).fb := by
      rw [fb, if_pos visible, fbWrite, State.setFb_fb]
    rw [fbRead_congr written, fbRead_fbWrite]
    simp only [pixelIndex_inj hx visible.1]
  · have elsewhere : ¬(x = s.dot.val ∧ y = s.line.val) := fun ⟨atDot, atLine⟩ =>
      visible ⟨atDot ▸ hx, atLine ▸ hy⟩
    rw [if_neg elsewhere]
    exact fbRead_congr (fb.trans (if_neg visible)) x y

/-- Settles O37: a cell of the grid is written when the cursor is at it, in the colour of `resolveCell`. -/
theorem tickWritesThePixel : Obligations.TickWritesThePixel := by
  unfold Obligations.TickWritesThePixel
  refine fun s live => ⟨_, exec_live .tick live, fun dot line => ?written, fun x y hx hy other => ?kept⟩
  case written => rw [fbRead_tick live dot line, if_pos ⟨rfl, rfl⟩, resolveCell_eq]
  case kept => rw [fbRead_tick live hx hy, if_neg other]

end Sys2Proof.Machine
end

section
/-! Proofs about the timing machine (45_timing.md R221 to R230): the cursor and the counters, the flags VBL,
S0H and IPEND after a TICK, and the host's query. -/

namespace Sys2Proof.Machine

/-! ### The window of IPEND -/

/-- On the grid the cursor tells the unit of the frame, in row-major order (46_scheduler.md R255). -/
theorem frameUnit_of_onGrid {s : State} (grid : s.OnGrid) :
    s.clk % 89342 = 341 * s.line.val + s.dot.val := by
  obtain ⟨-, dot, line⟩ := grid
  rw [dot, line, Nat.add_comm]
  exact Nat.mod_mul (a := 341) (b := 262)

/-- TICK moves IPEND at units 0 and 82182 of a frame alone, which are the dots (0, 0) and (1, 241). -/
theorem tick_ipendWindow {s : State} (live : s.fault = none) (grid : s.OnGrid)
    (window : s.IpendWindow) : (effect .tick s).IpendWindow := by
  have unit := frameUnit_of_onGrid grid
  have clk := (tick_cursor live).1
  have dotBound := s.dot.isLt
  unfold State.IpendWindow at window ⊢
  rw [tick_ipend live, dotStep_ipend live, clk]
  split_ifs with frameStart vblank
  · simp only [false_iff]
    omega
  · simp only [true_iff]
    omega
  · rw [window]
    omega

/-- Every other transaction moves neither IPEND nor the clock. -/
theorem effect_ipendWindow (i : Instr) {s : State} (live : s.fault = none) (grid : s.OnGrid)
    (window : s.IpendWindow) : (effect i s).IpendWindow := by
  by_cases hi : i = .tick
  · subst hi
    exact tick_ipendWindow live grid window
  · have frame := effect_frame_of_ne_tick hi s
    have ipend : (effect i s).ipend = s.ipend := frame.ipend
    have clk : (effect i s).clk = s.clk := frame.clk
    unfold State.IpendWindow
    rw [ipend, clk]
    exact window

/-- Settles O54: a step leaves the state but for the queue, or has the effect of its transaction, and the
queue is in neither the grid nor the window. -/
theorem stepKeepsIpendWindow : Obligations.StepKeepsIpendWindow := by
  unfold Obligations.StepKeepsIpendWindow
  intro s t grid window h
  obtain ⟨-, rfl⟩ | ⟨_, rest, i, -, -, performed⟩ := step_next h
  · exact window
  obtain ⟨-, rfl⟩ | ⟨live, rfl⟩ := exec_next performed
  · exact window
  · exact effect_ipendWindow (s := s.setScript rest) i live grid window

/-! ### The clock and the cursor -/

/-- Settles O30: TICK by `tick_cursor`, every other transaction by its frame. -/
theorem tickAdvancesClockAndCursor : Obligations.TickAdvancesClockAndCursor := by
  unfold Obligations.TickAdvancesClockAndCursor
  refine ⟨fun s live => ?tick, fun i s t hi h => ?other⟩
  case tick =>
    obtain ⟨clk, totdots, dot, line⟩ := tick_cursor live
    refine ⟨_, exec_live .tick live, clk, totdots, ?_, ?_⟩
    · rw [dot, nextDot_val]
    · rw [line, nextLine_val]
  case other =>
    obtain ⟨-, rfl⟩ | ⟨-, rfl⟩ := exec_next h
    · exact ⟨rfl, rfl, rfl, rfl⟩
    · have frame := effect_frame_of_ne_tick hi s
      exact ⟨frame.clk, frame.totdots, frame.dot, frame.line⟩

/-! ### S0H -/

/-- Settles O34: S0H and HITCOL are what the dot leaves, so the dot's rule for S0H is TICK's. -/
theorem tickSpriteZeroFlag : Obligations.TickSpriteZeroFlag := by
  unfold Obligations.TickSpriteZeroFlag
  intro s live
  have hitcol : (effect .tick s).hitcol = (dotStep s).hitcol :=
    (tick_hitcol live).trans (dotStep_hitcol live).symm
  exact ⟨_, exec_live .tick live, by rw [tick_s0h live, dotStep_s0h live, hitcol]⟩

/-! ### VBL -/

/-- STATUS after TICK is what the unit's branch leaves after the dot: the clock and the response are other
fields. -/
theorem tick_status {s : State} (live : s.fault = none) :
    (effect .tick s).status = (unitBranch s.clk (dotStep s)).status := by
  rw [effect_tick live, State.setResp_status, State.setClk_status]

/-- What follows the dot reads STATUS at most, so it sets VBL nowhere (41_registers.md R124). -/
theorem dotStep_vbl_of_tick_vbl {s : State} (live : s.fault = none)
    (vbl : statusVBL (effect .tick s).status = true) : statusVBL (dotStep s).status = true := by
  rw [tick_status live] at vbl
  exact (tick_frame s).vbl vbl

/-- Off the window no bus read touches STATUS (46_scheduler.md R254). -/
theorem dispatchRead_status_off_window {s : State} {a : Addr16} (off : inWindow s.params a = false) :
    (dispatchRead a s).2.status = s.status := by
  unfold dispatchRead
  rw [if_neg (by simp [off])]
  split
  · rfl
  · unfold busRead
    split <;> rfl

/-- A gated unit ends with its dot (46_scheduler.md R242). -/
theorem tick_status_gated {s : State} (live : s.fault = none) (idle : s.dma = .inactive)
    (gated : s.clk % 3 ≠ 0) : (effect .tick s).status = (dotStep s).status := by
  rw [tick_status live]
  simp only [unitBranch, (dotStep_frame s).dma, idle, if_neg gated]

/-- A step of NOP-CPU is an instruction boundary and accesses nothing (30_encoding.md R106). -/
theorem processorStep_status_nop {s : State} {n m : Nat} (nop : s.cpu = .nop n m) :
    (processorStep s).status = s.status := by
  unfold processorStep cpuStep
  rw [nop]
  dsimp only
  rw [performStep_boundary, State.setNmiprev_status, State.setCpu_status]

/-- With NOP-CPU a unit that does no DMA leaves STATUS to its dot, gated or stepped. -/
theorem tick_status_nop {s : State} {n m : Nat} (live : s.fault = none) (idle : s.dma = .inactive)
    (nop : s.cpu = .nop n m) : (effect .tick s).status = (dotStep s).status := by
  by_cases gate : s.clk % 3 = 0
  · rw [effect_tick_stepped live idle gate, State.setResp_status, State.setClk_status]
    exact processorStep_status_nop ((dotStep_frame s).cpu.trans nop)
  · exact tick_status_gated live idle gate

/-- A DMA unit touches STATUS by its source read alone (46_scheduler.md R249). -/
theorem tick_status_dma_off_window {s : State} {page : Byte} {count : Fin 256} (live : s.fault = none)
    (active : s.dma = .active page count) (off : inWindow s.params (dmaSource page count) = false) :
    (effect .tick s).status = (dotStep s).status := by
  rw [← (dotStep_frame s).params] at off
  rw [effect_tick_dma live active, State.setResp_status, State.setClk_status, dmaByte,
    State.setDma_status, oamPush, State.setOamaddr_status, State.setOam_status,
    dispatchRead_status_off_window off]

/-- Settles O35: in the three kinds of unit STATUS is what the dot leaves, and `dotStep_vbl` says what VBL
is then; in any unit VBL is 1 only where the dot left it 1. -/
theorem tickVblankFlag : Obligations.TickVblankFlag := by
  unfold Obligations.TickVblankFlag
  refine fun s live => ⟨_, exec_live .tick live, fun vbl => ?bound, fun kind => ?kinds⟩
  case bound =>
    have left := dotStep_vbl_of_tick_vbl live vbl
    rw [dotStep_vbl live] at left
    split_ifs at left with frameStart vblank
    · exact ⟨frameStart, .inl vblank⟩
    · exact ⟨frameStart, .inr left⟩
  case kinds =>
    have status : (effect .tick s).status = (dotStep s).status := by
      obtain ⟨idle, gated⟩ | ⟨idle, _, _, nop⟩ | ⟨_, _, active, off⟩ := kind
      · exact tick_status_gated live idle gated
      · exact tick_status_nop live idle nop
      · exact tick_status_dma_off_window live active off
    rw [status, dotStep_vbl live]

/-- A dot sets VBL only with IPEND, and clears IPEND only with VBL. -/
theorem tick_vblankPending {s : State} (live : s.fault = none) (pending : s.VblankPending) :
    (effect .tick s).VblankPending := by
  intro vbl
  have left := dotStep_vbl_of_tick_vbl live vbl
  rw [dotStep_vbl live] at left
  rw [tick_ipend live, dotStep_ipend live]
  split_ifs at left ⊢
  · rfl
  · exact pending left

/-- Settles O57: `step_keeps_timing`; a register access keeps IPEND and sets no VBL. -/
theorem stepKeepsVblankPending : Obligations.StepKeepsVblankPending := by
  unfold Obligations.StepKeepsVblankPending
  intro s t pending h
  refine step_keeps_timing (P := State.VblankPending) ?queue ?access ?resp ?lastrep ?tick pending h
  case queue => exact fun _ _ hu => hu
  case access => exact fun _ _ frame hu vbl => frame.ipend.trans (hu (frame.vbl vbl))
  case resp => exact fun _ _ => Iff.rfl
  case lastrep => exact fun _ _ hu => hu
  case tick => exact fun _ live hu => tick_vblankPending live hu

/-! ### FRAME_READY -/

theorem frameReadyQuery_report {s : State} (due : s.totdots > s.lastrep + 89342) :
    frameReadyQuery s = (true, s.setLastrep s.totdots) := by
  unfold frameReadyQuery
  rw [if_pos due]

theorem frameReadyQuery_wait {s : State} (early : s.totdots ≤ s.lastrep + 89342) :
    frameReadyQuery s = (false, s) := by
  unfold frameReadyQuery
  rw [if_neg (Nat.not_lt.2 early)]

/-- Settles O22: the query's two answers, at the strict comparison. -/
theorem frameReadyIsStrict : Obligations.FrameReadyIsStrict := by
  unfold Obligations.FrameReadyIsStrict
  refine ⟨decode_encode .frameReady, fun s live => ?_⟩
  rw [exec_live .frameReady live]
  unfold effect
  dsimp only
  exact ⟨fun due => by rw [frameReadyQuery_report due], fun early => by rw [frameReadyQuery_wait early]⟩

end Sys2Proof.Machine
end

section
/-! Proofs about what every clock unit keeps (46_scheduler.md R240 to R243, R255): the grid of CLK and the
cursor, the frame of TICK, and a unit that ends with its dot. -/

namespace Sys2Proof.Machine

/-! ### The grid -/

/-- TICK moves on to the next unit and the next dot, in row-major order (45_timing.md R226, R227). -/
theorem tick_onGrid {s : State} (live : s.fault = none) (grid : s.OnGrid) : (effect .tick s).OnGrid := by
  obtain ⟨total, dot, line⟩ := grid
  obtain ⟨clk', totdots', dot', line'⟩ := tick_cursor live
  unfold State.OnGrid
  rw [clk', totdots', dot', line', nextDot_val, nextLine_val]
  refine ⟨by rw [total], ?_, ?_⟩
  · split_ifs <;> omega
  · split_ifs <;> omega

/-- Settles O53: `step_keeps_timing`; a register access moves neither the clock nor the cursor. -/
theorem stepKeepsGrid : Obligations.StepKeepsGrid := by
  unfold Obligations.StepKeepsGrid
  intro s t grid h
  refine step_keeps_timing (P := State.OnGrid) ?queue ?access ?resp ?lastrep ?tick grid h
  case queue => exact fun _ _ hu => hu
  case access =>
    intro s t frame hu
    unfold State.OnGrid
    rw [frame.clk, frame.totdots, frame.dot, frame.line]
    exact hu
  case resp => exact fun _ _ => Iff.rfl
  case lastrep => exact fun _ _ hu => hu
  case tick => exact fun _ live hu => tick_onGrid live hu

/-! ### What no unit changes -/

/-- A unit of a live machine leaves it live: neither its dot nor its branch faults (44_compositor.md
R214). -/
theorem effect_tick_fault {s : State} (live : s.fault = none) : (effect .tick s).fault = none := by
  rw [effect_tick live, State.setResp_fault, State.setClk_fault, (tick_frame s).fault, dotStep_fault live]

/-- Settles O31: the unit's branch keeps what the dot keeps of them. -/
theorem tickFrame : Obligations.TickFrame := by
  unfold Obligations.TickFrame
  refine fun s live => ⟨_, exec_live .tick live, ?lastrep, effect_tick_fault live,
    effect_tick_params live, ?script, ?resp⟩
  case lastrep =>
    rw [effect_tick live, State.setResp_lastrep, State.setClk_lastrep, (tick_frame s).lastrep,
      (dotStep_frame s).lastrep]
  case script =>
    rw [effect_tick live, State.setResp_script, State.setClk_script, (tick_frame s).script,
      (dotStep_frame s).script]
  case resp => rw [effect_tick live, State.setResp_resp]

/-! ### A gated unit -/

/-- A unit with no DMA and an index that is no multiple of 3 ends with its dot (R242). -/
theorem effect_tick_gated {s : State} (live : s.fault = none) (idle : s.dma = .inactive)
    (gated : s.clk % 3 ≠ 0) :
    effect .tick s = ((dotStep s).setClk (s.clk + 1)).setResp .none := by
  rw [effect_tick live]
  simp only [unitBranch, (dotStep_frame s).dma, idle, if_neg gated]

/-- Settles O43: the dot's laws, field by field, and `effect_tick_gated`. -/
theorem gatedUnitFrame : Obligations.GatedUnitFrame := by
  unfold Obligations.GatedUnitFrame
  refine fun s live => ⟨?dot, fun idle gated => ?unit⟩
  case dot =>
    have dot := dotStep_frame s
    exact ⟨dotStep_oamaddr live, dotStep_vbl live, dotStep_ipend live, dotStep_fault live, dot.ctrl,
      dot.mask, dot.scrollX, dot.scrollY, dot.vaddr, dot.vtog, dot.cart, dot.cpu, dot.dma, dot.clk,
      dot.nmiprev, dot.draws, dot.params, oamRead_congr dot.oam, palRead_congr dot.pal⟩
  case unit => rw [exec_live .tick live, effect_tick_gated live idle gated]

end Sys2Proof.Machine
end

section
/-! Proofs about the dispatcher off the window (46_scheduler.md R254, R248): the DMA trigger, and the
targets outside the block. -/

namespace Sys2Proof.Machine

section

variable {s : State} {a : Addr16} (off : inWindow s.params a = false)

include off

theorem dispatchRead_trigger (trigger : a = s.params.dmaTrigger) : dispatchRead a s = readDma s := by
  unfold dispatchRead
  rw [off, if_neg Bool.false_ne_true, if_pos trigger]

theorem dispatchRead_elsewhere (elsewhere : a ≠ s.params.dmaTrigger) :
    dispatchRead a s = busRead a s := by
  unfold dispatchRead
  rw [off, if_neg Bool.false_ne_true, if_neg elsewhere]

theorem dispatchWrite_trigger (trigger : a = s.params.dmaTrigger) (v : Byte) :
    dispatchWrite a v s = s.setDma (.active v 0) := by
  unfold dispatchWrite
  rw [off, if_neg Bool.false_ne_true, if_pos trigger]
  rfl

theorem dispatchWrite_elsewhere (elsewhere : a ≠ s.params.dmaTrigger) (v : Byte) :
    dispatchWrite a v s = s := by
  unfold dispatchWrite
  rw [off, if_neg Bool.false_ne_true, if_neg elsewhere]

end

/-- An address's low and high byte in plain numbers. -/
theorem lowByte_eq (a : Addr16) : a.extractLsb' 0 8 = BitVec.ofNat 8 (a.toNat % 256) := by
  apply BitVec.eq_of_toNat_eq
  rw [BitVec.extractLsb'_toNat, BitVec.toNat_ofNat, Nat.shiftRight_zero]
  omega

theorem highByte_eq (a : Addr16) : a.extractLsb' 8 8 = BitVec.ofNat 8 (a.toNat / 256) := by
  apply BitVec.eq_of_toNat_eq
  rw [BitVec.extractLsb'_toNat, BitVec.toNat_ofNat, Nat.shiftRight_eq_div_pow]

/-- Settles O29: the dispatcher's two cases off the window, and the kinds of bus. -/
theorem dispatcherOutsideWindow : Obligations.DispatcherOutsideWindow := by
  unfold Obligations.DispatcherOutsideWindow
  refine fun s a v off => ⟨fun trigger => ?trigger, fun elsewhere => ?elsewhere⟩
  case trigger => exact ⟨dispatchRead_trigger off trigger, dispatchWrite_trigger off trigger v⟩
  case elsewhere =>
    refine ⟨dispatchWrite_elsewhere off elsewhere v, ?_⟩
    rw [dispatchRead_elsewhere off elsewhere, busRead, ← lowByte_eq, ← highByte_eq]
    rfl

end Sys2Proof.Machine
end

section
/-! Proofs about a unit that steps the processor (46_scheduler.md R242, R245 to R248). -/

namespace Sys2Proof.Machine

/-- A unit's sample sees IPEND as the dot leaves it (45_timing.md R228). -/
theorem nmiOut_dotStep (s : State) :
    nmiOut (dotStep s) = (s.ctrl.getLsbD 7 && (dotStep s).ipend) := by
  rw [nmiOut, (dotStep_frame s).ctrl, ctrlNMIE]

theorem nmiOut_setDma (s : State) (d : Dma) : nmiOut (s.setDma d) = nmiOut s := rfl

/-- What an instruction boundary without accesses and the end of its unit leave as the dot left it. -/
structure SampleFrame (s t : State) : Prop extends SourceFrame s t where
  status : t.status = s.status
  vaddr : t.vaddr = s.vaddr
  oamaddr : t.oamaddr = s.oamaddr
  oam : t.oam = s.oam
  dma : t.dma = s.dma
  draws : t.draws = s.draws

theorem sampleFrame_unit (s : State) (cpu : CpuState) (nmiprev : Bool) (clk : Nat) (resp : Response) :
    SampleFrame s ((((s.setCpu cpu).setNmiprev nmiprev).setClk clk).setResp resp) where
  toSourceFrame := by constructor <;> simp
  status := by simp
  vaddr := by simp
  oamaddr := by simp
  oam := by simp
  dma := by simp
  draws := by simp

/-- Settles O45: the two equations by which RUN_STEP recurses. -/
theorem stepAccessesInOrder : Obligations.StepAccessesInOrder := by
  unfold Obligations.StepAccessesInOrder
  exact ⟨fun s a k => performStep_read a k s, fun s a v rest => performStep_write a v rest s⟩

/-- A write of the DMA trigger within a step starts a transfer, and the rest of the step runs on. -/
theorem performStep_write_trigger {s : State} (off : inWindow s.params s.params.dmaTrigger = false)
    (v : Byte) (rest : CpuStep) :
    performStep (.write s.params.dmaTrigger v rest) s = performStep rest (s.setDma (.active v 0)) := by
  rw [performStep_write, dispatchWrite_trigger off rfl]

section

variable {s : State} (live : s.fault = none) (idle : s.dma = .inactive) (stepped : s.clk % 3 = 0)

include live idle stepped

/-- A stepped unit: the dot, the step of the processor as it was, CLK. -/
theorem effect_tick_performStep :
    effect .tick s =
      ((performStep (cpuStep s.cpu) (dotStep s)).setClk (s.clk + 1)).setResp .none := by
  rw [effect_tick_stepped live idle stepped, processorStep_dotStep]

/-- A stepped unit of NOP-CPU: after the dot, the NMI sample and the counters alone. -/
theorem effect_tick_nop {n m : Nat} (nop : s.cpu = .nop n m) :
    effect .tick s =
      ((((dotStep s).setCpu
        (if nmiOut (dotStep s) && !s.nmiprev then .nop (n + 1) (m + 1) else .nop (n + 1) m)).setNmiprev
          (nmiOut (dotStep s))).setClk (s.clk + 1)).setResp .none := by
  rw [effect_tick_performStep live idle stepped, nop, cpuStep, performStep_boundary,
    (dotStep_frame s).nmiprev, cpuRaiseNmi]

/-- A stepped unit whose step begins with a write of the DMA trigger. -/
theorem effect_tick_trigger {v : Byte} {rest : CpuStep}
    (off : inWindow s.params s.params.dmaTrigger = false)
    (writes : cpuStep s.cpu = .write s.params.dmaTrigger v rest) :
    effect .tick s =
      ((performStep rest ((dotStep s).setDma (.active v 0))).setClk (s.clk + 1)).setResp .none := by
  rw [effect_tick_performStep live idle stepped, writes]
  rw [← (dotStep_frame s).params] at off ⊢
  rw [performStep_write_trigger off]

end

/-- Settles O44: the step's equations by its shape, and NOP-CPU's unit field by field. -/
theorem nopCpuBoundary : Obligations.NopCpuBoundary := by
  unfold Obligations.NopCpuBoundary
  refine ⟨fun s live idle stepped => ?stepped, fun s c => performStep_busy c s,
    fun s c => performStep_boundary c s, fun s n m live idle stepped nop => ?nop⟩
  case stepped => rw [exec_live .tick live, effect_tick_performStep live idle stepped]
  case nop =>
    have dot := dotStep_frame s
    have counters {b : Bool} : (if b then .nop (n + 1) (m + 1) else .nop (n + 1) m) =
        CpuState.nop (n + 1) (if b then m + 1 else m) := by
      cases b <;> rfl
    have unit := effect_tick_nop live idle stepped nop
    rw [nmiOut_dotStep, counters] at unit
    have sample : SampleFrame (dotStep s) (effect .tick s) := unit ▸ sampleFrame_unit ..
    have kept := dot.source.trans sample.toSourceFrame
    refine ⟨_, exec_live .tick live, ?nmiprev, ?cpu, ?oamaddr, sample.status, ?vbl, kept.ctrl, kept.mask,
      kept.scrollX, kept.scrollY, sample.vaddr.trans dot.vaddr, kept.vtog, kept.cart,
      (sample.dma.trans dot.dma).trans idle, sample.draws.trans dot.draws,
      oamRead_congr (sample.oam.trans dot.oam), palRead_congr kept.pal⟩
    case nmiprev =>
      rw [tick_ipend live, unit, State.setResp_nmiprev, State.setClk_nmiprev, State.setNmiprev_nmiprev]
    case cpu =>
      rw [tick_ipend live, unit, State.setResp_cpu, State.setClk_cpu, State.setNmiprev_cpu,
        State.setCpu_cpu]
    case oamaddr => rw [sample.oamaddr, dotStep_oamaddr live]
    case vbl => rw [sample.status, dotStep_vbl live]

/-- Settles O46: the trigger's write by `performStep_write_trigger`; ONE-SHOT-CPU does nothing after it, so
the transfer stands at the unit's end and the sample reads the dot's IPEND. -/
theorem processorTriggerStartsDma : Obligations.ProcessorTriggerStartsDma := by
  unfold Obligations.ProcessorTriggerStartsDma
  refine ⟨fun s v rest off => performStep_write_trigger off v rest,
    fun s v rest live idle stepped off writes => ?unit,
    fun s v m live idle stepped off oneShot => ?oneShot⟩
  case unit => rw [exec_live .tick live, effect_tick_trigger live idle stepped off writes]
  case oneShot =>
    have writes : cpuStep s.cpu =
        .write s.params.dmaTrigger v (.done (.oneShot s.params.dmaTrigger v 1 m) false) := by
      rw [oneShot]; rfl
    have unit := effect_tick_trigger live idle stepped off writes
    rw [performStep_boundary, nmiOut_setDma, nmiOut_dotStep] at unit
    refine ⟨_, exec_live .tick live, ?dma, ?nmiprev⟩
    case dma =>
      rw [unit, State.setResp_dma, State.setClk_dma, State.setNmiprev_dma, State.setCpu_dma,
        State.setDma_dma]
    case nmiprev =>
      rw [tick_ipend live, unit, State.setResp_nmiprev, State.setClk_nmiprev, State.setNmiprev_nmiprev]

end Sys2Proof.Machine
end

section
/-! Proofs about the units of a DMA transfer (46_scheduler.md R249 to R251; 70_reset_and_hazards.md R286):
one unit with any source, one with BUS-PAT outside the block, and all 256 of a page. -/

namespace Sys2Proof.Machine

/-! ### One byte -/

/-- The source's byte stands at the cursor, and every other byte of OAM is as the read left it. -/
theorem oamRead_dmaByte (page : Byte) (count : Fin 256) (s : State) (i : Nat) :
    oamRead (dmaByte page count s) i =
      if i % 256 = (dispatchRead (dmaSource page count) s).2.oamaddr.toNat then
        (dispatchRead (dmaSource page count) s).1
      else oamRead (dispatchRead (dmaSource page count) s).2 i :=
  oamRead_oamPush ..

theorem dmaByte_cpu (page : Byte) (count : Fin 256) (s : State) : (dmaByte page count s).cpu = s.cpu :=
  (dispatchRead_frame (dmaSource page count) s).cpu

theorem dmaByte_nmiprev (page : Byte) (count : Fin 256) (s : State) :
    (dmaByte page count s).nmiprev = s.nmiprev :=
  (dispatchRead_frame (dmaSource page count) s).nmiprev

/-- The bytes of a source address are the count and the page (R249). -/
theorem dmaSource_lowByte (page : Byte) (count : Fin 256) :
    (dmaSource page count).extractLsb' 0 8 = BitVec.ofNat 8 count.val := by
  rw [lowByte_eq, dmaSource_toNat]
  congr 1
  omega

theorem dmaSource_highByte (page : Byte) (count : Fin 256) :
    (dmaSource page count).extractLsb' 8 8 = page := by
  rw [highByte_eq, dmaSource_toNat, show (page.toNat * 256 + count.val) / 256 = page.toNat by omega,
    BitVec.ofNat_toNat, BitVec.setWidth_eq]

/-- BUS-PAT gives `count ^ page` and has no effect (92_eei_decisions.md D57). -/
theorem dmaByte_pattern {s : State} {page : Byte} {count : Fin 256} (bus : s.params.bus = .pattern)
    (off : inWindow s.params (dmaSource page count) = false)
    (elsewhere : dmaSource page count ≠ s.params.dmaTrigger) :
    dmaByte page count s =
      (oamPush s (BitVec.ofNat 8 count.val ^^^ page)).setDma (nextDma page count) := by
  have read : dispatchRead (dmaSource page count) s = (BitVec.ofNat 8 count.val ^^^ page, s) := by
    rw [dispatchRead_elsewhere off elsewhere, busRead, bus]
    dsimp only
    rw [dmaSource_lowByte, dmaSource_highByte]
  unfold dmaByte
  rw [read]

/-! ### One unit -/

/-- The clock and the response are not OAM. -/
theorem oamRead_unit (s : State) (clk : Nat) (resp : Response) (i : Nat) :
    oamRead ((s.setClk clk).setResp resp) i = oamRead s i := rfl

section

variable {s : State} {page : Byte} {count : Fin 256} (live : s.fault = none)
  (active : s.dma = .active page count)

include live active

theorem tick_dma_dma : (effect .tick s).dma = nextDma page count := by
  rw [effect_tick_dma live active]
  rfl

/-- A DMA unit steps no processor (R251). -/
theorem tick_dma_cpu : (effect .tick s).cpu = s.cpu := by
  rw [effect_tick_dma live active, State.setResp_cpu, State.setClk_cpu, dmaByte_cpu,
    (dotStep_frame s).cpu]

/-- A DMA unit samples no NMI (R251). -/
theorem tick_dma_nmiprev : (effect .tick s).nmiprev = s.nmiprev := by
  rw [effect_tick_dma live active, State.setResp_nmiprev, State.setClk_nmiprev, dmaByte_nmiprev,
    (dotStep_frame s).nmiprev]

variable (bus : s.params.bus = .pattern) (off : inWindow s.params (dmaSource page count) = false)
  (elsewhere : dmaSource page count ≠ s.params.dmaTrigger)

include bus off elsewhere

theorem effect_tick_dma_pattern :
    effect .tick s =
      (((oamPush (dotStep s) (BitVec.ofNat 8 count.val ^^^ page)).setDma (nextDma page count)).setClk
        (s.clk + 1)).setResp .none := by
  rw [← (dotStep_frame s).params] at bus off elsewhere
  rw [effect_tick_dma live active, dmaByte_pattern bus off elsewhere]

theorem oamRead_tick_dma_pattern (i : Nat) :
    oamRead (effect .tick s) i =
      if i % 256 = (dotStep s).oamaddr.toNat then BitVec.ofNat 8 count.val ^^^ page
      else oamRead s i := by
  rw [effect_tick_dma_pattern live active bus off elsewhere, oamRead_unit,
    oamRead_congr (State.setDma_oam _ _), oamRead_oamPush, oamRead_congr (dotStep_frame s).oam]

theorem oamaddr_tick_dma_pattern : (effect .tick s).oamaddr = (dotStep s).oamaddr + 1 := by
  rw [effect_tick_dma_pattern live active bus off elsewhere, State.setResp_oamaddr,
    State.setClk_oamaddr, State.setDma_oamaddr, oamPush, State.setOamaddr_oamaddr]

/-- Elsewhere the unit leaves what its dot left. -/
theorem tick_dma_pattern_pushFrame : PushFrame (dotStep s) (effect .tick s) := by
  rw [effect_tick_dma_pattern live active bus off elsewhere]
  exact oamPush_pushFrame ..

end

/-- Settles O48: the unit's equation, whatever the source; with BUS-PAT the read has no effect, so what the
dot keeps is kept. -/
theorem dmaUnitMovesOneByte : Obligations.DmaUnitMovesOneByte := by
  unfold Obligations.DmaUnitMovesOneByte
  refine ⟨fun s page count live active => ?any,
    fun s page count live active bus off elsewhere => ?pattern⟩
  case any =>
    have dma := tick_dma_dma live active
    refine ⟨dmaSource_toNat page count, _, exec_live .tick live, ?state, fun i hi => ?cell,
      fun last => dma.trans (nextDma_last page last), fun on => dma.trans (nextDma_on page on),
      tick_dma_cpu live active, tick_dma_nmiprev live active⟩
    case state =>
      rw [effect_tick_dma live active]
      generalize dotStep s = d
      rfl
    case cell =>
      have written := oamRead_dmaByte page count (dotStep s) i
      rw [Nat.mod_eq_of_lt hi] at written
      rw [effect_tick_dma live active, oamRead_unit, written]
  case pattern =>
    have dma := tick_dma_dma live active
    have push := tick_dma_pattern_pushFrame live active bus off elsewhere
    have kept := (dotStep_frame s).source.trans push.toSourceFrame
    refine ⟨_, exec_live .tick live, ⟨?cursor, fun i hi => ?cell⟩,
      fun last => dma.trans (nextDma_last page last), fun on => dma.trans (nextDma_on page on),
      tick_dma_cpu live active, tick_dma_nmiprev live active, kept.ctrl, kept.mask, kept.scrollX,
      kept.scrollY, push.vaddr.trans (dotStep_frame s).vaddr, kept.vtog, kept.cart,
      palRead_congr kept.pal⟩
    case cursor => rw [oamaddr_tick_dma_pattern live active bus off elsewhere, dotStep_oamaddr live]
    case cell =>
      rw [oamRead_tick_dma_pattern live active bus off elsewhere, Nat.mod_eq_of_lt hi,
        dotStep_oamaddr live]

/-! ### A whole page -/

/-- The DMA state after `n` bytes of `page`. -/
def dmaAfter (page : Byte) (n : Nat) : Dma := if h : n < 256 then .active page ⟨n, h⟩ else .inactive

theorem nextDma_dmaAfter (page : Byte) {n : Nat} (h : n < 256) :
    nextDma page ⟨n, h⟩ = dmaAfter page (n + 1) := rfl

/-- `t` stands `n` units into the transfer of `page` that begins in `s`, with SPE = 0. -/
structure Copied (s : State) (page : Byte) (n : Nat) (t : State) : Prop where
  live : t.fault = none
  dma : t.dma = dmaAfter page n
  mask : t.mask = s.mask
  params : t.params = s.params
  oamaddr : t.oamaddr = s.oamaddr + BitVec.ofNat 8 n
  clk : t.clk = s.clk + n
  cpu : t.cpu = s.cpu
  nmiprev : t.nmiprev = s.nmiprev
  bytes : ∀ i, i < n → oamRead t (s.oamaddr.toNat + i) = BitVec.ofNat 8 i ^^^ page

/-- Fewer than 256 bytes from a cursor on, no two fall on one cell of OAM. -/
theorem cursor_add_mod_eq_iff (a : Byte) {i n : Nat} (hi : i < 256) (hn : n < 256) :
    (a.toNat + i) % 256 = (a + BitVec.ofNat 8 n).toNat ↔ i = n := by
  rw [BitVec.toNat_add, BitVec.toNat_ofNat]
  omega

/-- With SPE = 0 the hblank reset leaves the cursor (45_timing.md R225). -/
theorem dotStep_oamaddr_of_sprites_off {s : State} (live : s.fault = none)
    (spritesOff : maskSPE s.mask = false) : (dotStep s).oamaddr = s.oamaddr := by
  rw [dotStep_oamaddr live, if_neg (by simp [spritesOff])]

section

variable {s : State} {page : Byte} (spritesOff : maskSPE s.mask = false) (bus : s.params.bus = .pattern)
  (outside : ∀ c : Fin 256, inWindow s.params (dmaSource page c) = false ∧
    dmaSource page c ≠ s.params.dmaTrigger)

include spritesOff bus outside

/-- One unit copies one byte more. -/
theorem Copied.tick {n : Nat} (hn : n < 256) {t : State} (h : Copied s page n t) :
    Copied s page (n + 1) (effect .tick t) := by
  have active : t.dma = .active page ⟨n, hn⟩ := h.dma.trans (dif_pos hn)
  rw [← h.params] at bus outside
  obtain ⟨off, elsewhere⟩ := outside ⟨n, hn⟩
  have cursor : (dotStep t).oamaddr = s.oamaddr + BitVec.ofNat 8 n :=
    (dotStep_oamaddr_of_sprites_off h.live (h.mask ▸ spritesOff)).trans h.oamaddr
  have push := tick_dma_pattern_pushFrame h.live active bus off elsewhere
  refine
    { live := effect_tick_fault h.live
      dma := (tick_dma_dma h.live active).trans (nextDma_dmaAfter page hn)
      mask := (push.mask.trans (dotStep_frame t).mask).trans h.mask
      params := (effect_tick_params h.live).trans h.params
      oamaddr := ?oamaddr
      clk := by rw [(tick_cursor h.live).1, h.clk, Nat.add_assoc]
      cpu := (tick_dma_cpu h.live active).trans h.cpu
      nmiprev := (tick_dma_nmiprev h.live active).trans h.nmiprev
      bytes := fun i hi => ?byte }
  case oamaddr =>
    rw [oamaddr_tick_dma_pattern h.live active bus off elsewhere, cursor, BitVec.ofNat_add,
      BitVec.add_assoc]
    rfl
  case byte =>
    rw [oamRead_tick_dma_pattern h.live active bus off elsewhere, cursor]
    simp only [cursor_add_mod_eq_iff s.oamaddr (show i < 256 by omega) hn]
    split
    · next same => rw [same]
    · next other => exact h.bytes i (by omega)

/-- The units that are left complete the transfer. -/
theorem Copied.ticks {left n : Nat} (total : n + left = 256) {t : State} (h : Copied s page n t) :
    ∃ u, ticks left t = .next u ∧ Copied s page 256 u := by
  induction left generalizing n t with
  | zero => exact ⟨t, rfl, total ▸ h⟩
  | succ left ih =>
    unfold Machine.ticks
    rw [exec_live .tick h.live]
    exact ih (by omega) (h.tick spritesOff bus outside (by omega))

end

/-- Settles O50: nothing is copied at first, and `Copied.ticks` says what stands after 256 units; the
cursor has gone round once. -/
theorem dmaCopiesPageInOrder : Obligations.DmaCopiesPageInOrder := by
  unfold Obligations.DmaCopiesPageInOrder
  intro s page live active spritesOff bus outside
  have start : Copied s page 0 s :=
    { live, dma := active, mask := rfl, params := rfl, oamaddr := (BitVec.add_zero _).symm, clk := rfl,
      cpu := rfl, nmiprev := rfl, bytes := fun _ hi => absurd hi (Nat.not_lt_zero _) }
  obtain ⟨t, run, done⟩ := start.ticks spritesOff bus outside (left := 256) rfl
  exact ⟨t, run, done.dma, done.oamaddr.trans (BitVec.add_zero _), done.clk, done.cpu, done.nmiprev,
    done.bytes⟩

end Sys2Proof.Machine
end

section
/-! Proofs about what a step can answer (60_exceptions.md R260 to R262, R274): itself with no word, a
refusal for a reserved word, and otherwise a live state from a live one. -/

namespace Sys2Proof.Machine

/-- Settles O8: `exec_faulted`; every transaction is performed in the frame that tests the fault first. -/
theorem faultedMachineQuiescent : Obligations.FaultedMachineQuiescent := by
  unfold Obligations.FaultedMachineQuiescent
  exact fun i _ faulted => exec_faulted i faulted

theorem step_of_empty {s : State} (empty : s.script = []) : step s = .next s := by
  unfold step
  rw [empty]

/-- Settles O7. -/
theorem noWordLeavesState : Obligations.NoWordLeavesState := by
  unfold Obligations.NoWordLeavesState
  exact fun _ => step_of_empty

theorem step_of_reserved {s : State} {w : TWord} {rest : List TWord} {why : Reserved}
    (waits : s.script = w :: rest) (hw : decode w = .error why) :
    step s = .refused (.reserved why) := by
  unfold step
  rw [waits]
  dsimp only
  rw [hw]

/-- Settles O6. -/
theorem reservedWordRefused : Obligations.ReservedWordRefused := by
  unfold Obligations.ReservedWordRefused
  exact fun _ _ _ _ => step_of_reserved

/-- No transaction faults a live machine: TICK by `effect_tick_fault`, every other one by its frame
(60_exceptions.md R261). -/
theorem effect_fault (i : Instr) {s : State} (live : s.fault = none) : (effect i s).fault = none := by
  by_cases hi : i = .tick
  · subst hi
    exact effect_tick_fault live
  · exact (effect_frame_of_ne_tick hi s).fault.trans live

theorem safeStep_of_next {s t : State} (h : step s = .next t) (live : t.Live) : s.SafeStep := by
  unfold State.SafeStep
  rw [h]
  exact live

theorem safeStep_of_refused {s : State} {r : Refusal} (h : step s = .refused r) : s.SafeStep := by
  unfold State.SafeStep
  rw [h]
  trivial

/-- Settles O58: the queue is empty, or its first word is reserved, or it is a transaction's and
`effect_fault` applies. -/
theorem noStepFaults : Obligations.NoStepFaults := by
  unfold Obligations.NoStepFaults
  intro s live
  cases waits : s.script with
  | nil => exact safeStep_of_next (step_of_empty waits) live
  | cons w rest =>
    cases hw : decode w with
    | error why => exact safeStep_of_refused (step_of_reserved waits hw)
    | ok i =>
      have next : step s = .next (effect i (s.setScript rest)) :=
        (step_of_decode waits hw).trans (exec_live i live)
      exact safeStep_of_next next (effect_fault i live)

end Sys2Proof.Machine
end

section
/-! Proofs about a processor step that writes CTRL (60_exceptions.md R265; 41_registers.md R121): the rest
of the step, and so the sample at its end, runs on the new CTRL. -/

namespace Sys2Proof.Machine

theorem nmiOut_setCtrl (s : State) (v : Byte) : nmiOut (s.setCtrl v) = (v.getLsbD 7 && s.ipend) := rfl

/-- A write to an address of the window that is 0 modulo 8 is the write of CTRL (30_encoding.md R90, R91). -/
theorem dispatchWrite_ctrl {s : State} {a : Addr16} (inside : inWindow s.params a = true)
    (index : a.toNat % 8 = 0) (v : Byte) : dispatchWrite a v s = s.setCtrl v := by
  rw [dispatchWrite_window inside, windowIndex_eq, index]
  rfl

theorem performStep_write_ctrl {s : State} {a : Addr16} (inside : inWindow s.params a = true)
    (index : a.toNat % 8 = 0) (v : Byte) (rest : CpuStep) :
    performStep (.write a v rest) s = performStep rest (s.setCtrl v) := by
  rw [performStep_write, dispatchWrite_ctrl inside index]

/-- An instruction boundary right after the write: the sample reads the byte just written. -/
theorem performStep_boundary_setCtrl (s : State) (v : Byte) (c : CpuState) :
    performStep (.done c false) (s.setCtrl v) =
      ((s.setCtrl v).setCpu
        (if (v.getLsbD 7 && s.ipend) && !s.nmiprev then cpuRaiseNmi c else c)).setNmiprev
          (v.getLsbD 7 && s.ipend) := by
  rw [performStep_boundary, nmiOut_setCtrl, State.setCtrl_nmiprev]

section

variable {s : State} (live : s.fault = none) (idle : s.dma = .inactive) (stepped : s.clk % 3 = 0)
  {a : Addr16} (inside : inWindow s.params a = true) (index : a.toNat % 8 = 0) {v : Byte}

include live idle stepped inside index

/-- A stepped unit whose step begins with a write of CTRL. -/
theorem effect_tick_ctrl {rest : CpuStep} (writes : cpuStep s.cpu = .write a v rest) :
    effect .tick s =
      ((performStep rest ((dotStep s).setCtrl v)).setClk (s.clk + 1)).setResp .none := by
  have inside' : inWindow (dotStep s).params a = true := (dotStep_frame s).params ▸ inside
  rw [effect_tick_performStep live idle stepped, writes, performStep_write_ctrl inside' index]

/-- Where that write is all such a step does, the unit's sample sees its byte, with IPEND as the dot leaves
it and the latch as it was before the unit. -/
theorem tick_ctrl_boundary {c : CpuState} (writes : cpuStep s.cpu = .write a v (.done c false)) :
    (effect .tick s).ctrl = v ∧
    (effect .tick s).nmiprev = (v.getLsbD 7 && (effect .tick s).ipend) ∧
    (effect .tick s).cpu =
      if (v.getLsbD 7 && (effect .tick s).ipend) && !s.nmiprev then cpuRaiseNmi c else c := by
  rw [tick_ipend live, effect_tick_ctrl live idle stepped inside index writes,
    performStep_boundary_setCtrl, (dotStep_frame s).nmiprev]
  exact ⟨rfl, rfl, rfl⟩

end

/-- Settles O47: the step's equations at any state, the unit that begins with the write, and ONE-SHOT-CPU,
whose first step is that write alone. -/
theorem ctrlWriteSeenBySample : Obligations.CtrlWriteSeenBySample := by
  unfold Obligations.CtrlWriteSeenBySample
  refine ⟨fun s a v inside index => ⟨performStep_write_ctrl inside index v, fun c => ?boundary⟩,
    fun s a v rest live idle stepped inside index writes => ?unit,
    fun s a v m live idle stepped inside index oneShot => ?oneShot⟩
  case boundary => rw [performStep_write_ctrl inside index, performStep_boundary_setCtrl]
  case unit =>
    refine ⟨_, exec_live .tick live, effect_tick_ctrl live idle stepped inside index writes, ?_⟩
    rintro c rfl
    exact tick_ctrl_boundary live idle stepped inside index writes
  case oneShot =>
    have writes : cpuStep s.cpu = .write a v (.done (.oneShot a v 1 m) false) := by
      rw [oneShot]; rfl
    have counters {b : Bool} : (if b then cpuRaiseNmi (.oneShot a v 1 m) else .oneShot a v 1 m) =
        CpuState.oneShot a v 1 (if b then m + 1 else m) := by
      cases b <;> rfl
    obtain ⟨ctrl, nmiprev, cpu⟩ := tick_ctrl_boundary live idle stepped inside index writes
    exact ⟨_, exec_live .tick live, ctrl, nmiprev, cpu.trans counters⟩

end Sys2Proof.Machine
end

section
/-! Proofs about power-on and the first frame (70_reset_and_hazards.md R280, R282). -/

namespace Sys2Proof.Machine

/-! ### The first frame -/

/-- On the grid the present unit is 341 y + x plus whole frames where the cursor is at (x, y), and it is
341 y + x nowhere else (46_scheduler.md R255). -/
theorem lt_clk_succ_iff_of_onGrid {s : State} (grid : s.OnGrid) {x y : Nat} (hx : x < 256)
    (hy : y < 240) :
    341 * y + x < s.clk + 1 ↔ (x = s.dot.val ∧ y = s.line.val) ∨ 341 * y + x < s.clk := by
  have unit := frameUnit_of_onGrid grid
  have dotBound := s.dot.isLt
  have now : x = s.dot.val ∧ y = s.line.val → 341 * y + x ≤ s.clk := by omega
  have cursor : 341 * y + x = s.clk → x = s.dot.val ∧ y = s.line.val := by omega
  omega

/-- The cells of the grid listed after TICK: the one at the cursor, and those listed before. -/
theorem cellLookup_fb_tick_isSome {s : State} (live : s.fault = none) {x y : Nat} (hx : x < 256)
    (hy : y < 240) :
    (cellLookup (effect .tick s).fb (pixelIndex x y)).isSome = true ↔
      (x = s.dot.val ∧ y = s.line.val) ∨ (cellLookup s.fb (pixelIndex x y)).isSome = true := by
  rw [tick_fb live, dotStep_fb live]
  by_cases visible : s.dot.val < 256 ∧ s.line.val < 240
  · rw [if_pos visible, cellLookup_insert]
    simp only [pixelIndex_inj hx visible.1]
    by_cases atCursor : x = s.dot.val ∧ y = s.line.val <;> simp [atCursor]
  · have elsewhere : ¬(x = s.dot.val ∧ y = s.line.val) := fun ⟨atDot, atLine⟩ =>
      visible ⟨atDot ▸ hx, atLine ▸ hy⟩
    rw [if_neg visible, or_iff_right elsewhere]

theorem tick_fbProgress {s : State} (live : s.fault = none) (grid : s.OnGrid)
    (progress : s.FbProgress) : (effect .tick s).FbProgress := by
  intro x y hx hy
  rw [cellLookup_fb_tick_isSome live hx hy, (tick_cursor live).1, lt_clk_succ_iff_of_onGrid grid hx hy,
    progress x y hx hy]

/-- TICK by `tick_fbProgress`; every other transaction moves neither FB nor the clock. -/
theorem effect_fbProgress (i : Instr) {s : State} (live : s.fault = none) (grid : s.OnGrid)
    (progress : s.FbProgress) : (effect i s).FbProgress := by
  by_cases hi : i = .tick
  · subst hi
    exact tick_fbProgress live grid progress
  · have frame := effect_frame_of_ne_tick hi s
    have fb : (effect i s).fb = s.fb := frame.fb
    have clk : (effect i s).clk = s.clk := frame.clk
    unfold State.FbProgress
    rw [fb, clk]
    exact progress

/-- Settles O55: a step leaves the state but for the queue, or has the effect of its transaction, and the
queue is in neither the grid nor the framebuffer. -/
theorem stepKeepsFbProgress : Obligations.StepKeepsFbProgress := by
  unfold Obligations.StepKeepsFbProgress
  intro s t grid progress h
  obtain ⟨-, rfl⟩ | ⟨_, rest, i, -, -, performed⟩ := step_next h
  · exact progress
  obtain ⟨-, rfl⟩ | ⟨live, rfl⟩ := exec_next performed
  · exact progress
  · exact effect_fbProgress (s := s.setScript rest) i live grid progress

/-! ### Power-on -/

/-- Settles O9: R280's row for a field is what `State.reset` writes there, and a store that lists nothing
reads everywhere as its unlisted value. -/
theorem powerOnValues : Obligations.PowerOnValues := by
  unfold Obligations.PowerOnValues
  refine ⟨rfl, rfl, rfl, rfl, rfl, rfl, rfl, rfl, ?oam, ?pal, ?scan, ?fb, rfl, rfl, rfl, rfl, rfl, rfl, rfl,
    rfl, rfl, rfl, ?nmiOut⟩
  case oam => exact fun _ => rfl
  case pal => exact fun _ => rfl
  case scan => exact fun _ => rfl
  case fb => exact fun _ _ => rfl
  case nmiOut => decide

/-- At power-on no cell is listed and no unit has run. -/
theorem reset_fbProgress : State.reset.FbProgress := fun _ _ _ _ =>
  iff_of_false Bool.false_ne_true (Nat.not_lt_zero _)

/-- Settles O51: the stores by `reset_storesWf`, the framebuffer by `reset_fbProgress`; the others are about
the clock, the cursor and the flags, all 0. -/
theorem resetMeetsInvariants : Obligations.ResetMeetsInvariants := by
  unfold Obligations.ResetMeetsInvariants
  refine ⟨reset_storesWf, ?grid, ?ipend, reset_fbProgress, ?statusLow, ?vblank, ?live⟩
  case grid => decide
  case ipend => decide
  case statusLow => decide
  case vblank => decide
  case live => rfl

end Sys2Proof.Machine
end
